-- ==== Sys2Proof/Word.lean ====
section
/-! DEFINITION. The words and index types of the WSL-480: what the manual counts in bytes, 16-bit numbers,
addresses and table indices. -/

namespace Sys2Proof

/-- One byte of the host link or of a frame. -/
abbrev Byte := BitVec 8

/-- A 16-bit number: a station or stream counter, a cycle number, the configured seed. -/
abbrev Half := BitVec 16

/-- A station address as a frame carries it (R175: five bits). 0 denotes no station. -/
abbrev Address := BitVec 5

/-- A time on the part's own clock, in nanoseconds. One bit time of the line is 50 (R1). -/
abbrev Time := Int

/-- A transmit stream number, 0 to 7. -/
abbrev StreamNo := Fin 8

/-- A subscription entry number, 0 to 15. -/
abbrev EntryNo := Fin 16

/-- A stream slot number, 0 to 47. -/
abbrev SlotNo := Fin 48

/-- A beacon position, 0 to 7. -/
abbrev Position := Fin 8

/-- A claim lane number, 0 or 1. -/
abbrev LaneNo := Fin 2

/-- A buffer of the block pool (R143). The manual gives its 192 buffers no numbers; these only tell them apart. -/
abbrev BufferNo := Fin 192

/-- The 24 bytes of one block of samples. -/
abbrev Payload := Vector Byte 24

/-- One flag per stream slot: a set of the activity record (R15) or an occupancy summary (R5). -/
abbrev SlotFlags := Vector Bool 48

end Sys2Proof
end

