-- ==== Sys2Proof/Syntax.lean ====
section
/-! DEFINITION. The commands of the WSL-480, one constructor per row of spec/opcode_table.json: the host's
requests, the events of the host link, the reset input, the cycle events of the timeline unit, and what the
line reports. -/

namespace Sys2Proof

/-- The commands. A host request names the moment its taking byte completes (R162); its operands are its
argument bytes as R176 gives them. A line event carries the time of its report, in nanoseconds on the part's
clock. -/
inductive Instr where
  /-- CONFIGURE(address, seed, founder-eligible, beacon-eligible), R22. -/
  | configure (address : Byte) (seed : Half) (founderEligible beaconEligible : Bool)
  /-- START, R24. -/
  | start
  /-- STOP, R34 to R36. -/
  | stop
  /-- RESET, R167. -/
  | reset
  /-- OPEN_TX(stream, tag, wanted), R107. -/
  | openTx (stream tag wanted : Byte)
  /-- CLOSE_TX(stream), R116 and R117. -/
  | closeTx (stream : Byte)
  /-- PUSH(stream, payload), R108. -/
  | push (stream : Byte) (payload : Payload)
  /-- SUBSCRIBE(entry, source, tag), R127. -/
  | subscribe (entry source tag : Byte)
  /-- UNSUBSCRIBE(entry), R128. -/
  | unsubscribe (entry : Byte)
  /-- POP(entry), R138. -/
  | pop (entry : Byte)
  /-- READ_EVENT, R156. -/
  | readEvent
  /-- READ_STATION, R41. -/
  | readStation
  /-- READ_STREAM(stream), R122. -/
  | readStream (stream : Byte)
  /-- READ_SUB(entry), R141. -/
  | readSub (entry : Byte)
  /-- READ_SLOT(slot), R80. -/
  | readSlot (slot : Byte)
  /-- A code byte that names no request, R166. -/
  | unknownCode (code : Byte)
  /-- Select falls, R162. -/
  | transactionBegin
  /-- Select rises, R165. -/
  | transactionEnd
  /-- The last response byte of a consuming read completes, R170. -/
  | consumingReadCommit
  /-- The reset input is asserted, R20. -/
  | resetInputAsserted
  /-- The reset input is released, R20. -/
  | resetInputReleased
  /-- Cycle start, R2. -/
  | cycleStart
  /-- Beacon position `p` opens, R44. -/
  | beaconPosition (p : Position)
  /-- Beacon position `p` closes, R9. -/
  | beaconPositionClose (p : Position)
  /-- Slot-phase start, R85. -/
  | slotPhaseStart
  /-- Slot occurrence `k` begins, R110. -/
  | slotOccurrenceBegin (k : SlotNo)
  /-- The lead-in of a division that carries a handed-over frame, R6. -/
  | leadIn
  /-- Slot occurrence `k` ends, R10. -/
  | slotOccurrenceEnd (k : SlotNo)
  /-- Cycle end, R30. -/
  | cycleEnd
  /-- Activity appears on a quiet pair, R7 and R25. -/
  | carrierStart (time : Time)
  /-- The receiver reports that the pair has fallen quiet, R7 and R25. -/
  | carrierEnd (time : Time)
  /-- A frame was received through its check word, R7: its 16-bit start pattern (R174), the bytes after it, and the
  times at which its first bit begins and its last bit ends (log entry 5). -/
  | frameReport (pattern : Half) (bytes : List Byte) (firstBit lastBit : Time)
  /-- The jam pattern was recognised, R7. -/
  | jamReport (time : Time)
  /-- Read-back finds a mismatch or a second driver while the line interface sends, R11. -/
  | readBackMismatch
  /-- The listen timer reaches zero, R26. -/
  | listenTimerExpiry (time : Time)
  /-- A byte of the host link completes, carrying `dataIn` on data in, R162 and R164. -/
  | byteComplete (dataIn : Byte)
deriving DecidableEq, Repr

end Sys2Proof
end

