-- ==== Sys2Proof/Decode.lean ====
section
/-! DEFINITION. The commands that the opcode table spells by bits. -/

namespace Sys2Proof

/-- The command that a word of the opcode table spells. No row of spec/opcode_table.json gives bits (every row's
"fields" is empty and none has "fixed"), so no word spells a command (log entry 10). The host link's own request
codes (R176) are bytes of a transaction and are read by the link: see `Machine.RequestCode.ofByte` and the command
`byteComplete`. -/
def decodeTableWord (_nbits _w : Nat) : Option Instr := none

end Sys2Proof
end

