-- ==== Sys2Proof/Config.lean ====
section
/-! DEFINITION. The named limits and capacities of the part (section 1.4 of 00_scope.md), the placement of the
divisions of a cycle (R1), and the four values the manual leaves free. -/

namespace Sys2Proof.Config

/-- LEASE, in silent occurrences (R62) and in quiet cycles (R136). -/
def lease : Nat := 6
/-- COOL, in silent occurrences (R63). -/
def cool : Nat := 4
/-- PROBE_CYCLES, in clean claim occurrences (R93). -/
def probeCycles : Nat := 3
/-- CONFLICT_LIMIT, in consecutive collided occurrences (R113). -/
def conflictLimit : Nat := 2
/-- SETTLE_CYCLES (R28, R33). -/
def settleCycles : Nat := 8
/-- HOLDOVER_LIMIT, in consecutive unbeaconed cycles (R30). -/
def holdoverLimit : Nat := 8
/-- ATTEMPT_LIMIT, in probe collisions (R95). -/
def attemptLimit : Nat := 10
/-- DEFER_LIMIT, in slot-phase starts without a FREE entry (R90). -/
def deferLimit : Nat := 32
/-- The fixed part of FOUND_WAIT, in microseconds (R25). -/
def foundWaitBase : Nat := 3000
/-- The drawn unit of FOUND_WAIT, in microseconds (R25). -/
def foundWaitUnit : Nat := 1000
/-- Buffers in the block pool (R143). -/
def poolBuffers : Nat := 192
/-- Blocks of one transmit stream, the in-transit block included (R106). -/
def txBlocks : Nat := 16
/-- Blocks of one receive queue (R125). -/
def rxBlocks : Nat := 16
/-- Records in the event queue (R154). -/
def eventRecords : Nat := 32

/-- Length of a cycle in nanoseconds (R1). -/
def cycleTime : Time := 1000000
/-- Length of a beacon position in nanoseconds (R1). -/
def positionTime : Time := 12000
/-- Where slot occurrence 0 opens, in nanoseconds from the cycle start (R1). -/
def slotPhaseTime : Time := 96000
/-- Length of a slot occurrence in nanoseconds (R1). -/
def slotTime : Time := 18000
/-- The lead-in, in nanoseconds from the opening of a division (R1). -/
def leadInTime : Time := 1000
/-- One bit time in nanoseconds (R1). -/
def bitTime : Time := 50
/-- Where the cycle tail opens and the cycle end is raised, in nanoseconds from the cycle start (R1, R2). -/
def tailTime : Time := 960000
/-- How long the pair shows no level change before the carrier end report, in nanoseconds (R174). -/
def quietTime : Time := 200

/-- FREE VALUE (log entry 3). The station's pseudo-random generator: the value of the draw with this index after
a seeding with this seed and address. Section 2.4 of 00_scope.md and R23 give each draw a range and nothing more,
so this constant has no body, and a draw from `0` to `n - 1` is its value modulo `n`. -/
opaque draw (seed : Half) (address : Address) (index : Nat) : Nat

/-- FREE VALUE (log entry 4). Which of two events of one cycle end comes first, the receive unit's quiet counting
(true) or the timeline unit's holdover and settle counts: R137 and R155 let either be first. -/
opaque quietCountFirst (index : Nat) : Bool

/-- FREE VALUE (log entry 7). Which buffer of the free list the pool gives: R143 lets it be any of them. The buffer
given is the one at this place, modulo the list's length. -/
opaque bufferGiven (index : Nat) : Nat

/-- FREE VALUE (log entry 17). How long the pair has carried, in nanoseconds less one, when START switches the receiver
on: no rule and no operand of START gives it a time, and R17 has the frames that began earlier not received. -/
opaque startDelay (index : Nat) : Nat

end Sys2Proof.Config
end

