-- ==== Sys2Proof/Machine/State.lean ====
section
/-! DEFINITION. The state of the WSL-480 as plain data, block by block as section 1.2 of 00_scope.md lists the
blocks, and its value after device reset (R20). Record fields that the manual calls present only in some states are
carried by the constructor for that state. -/

namespace Sys2Proof.Machine

/-- The six station states (R18). -/
inductive StationState where
  | unconfigured
  | ready
  | listen
  | settle
  | active
  | leaving
deriving DecidableEq, Repr

/-- The cause a STATION_STATE event carries (R18). -/
inductive Cause where
  | configure
  | start
  | adopt
  | found
  | settled
  | holdover
  | merge
  | stop
  | left
deriving DecidableEq, Repr

/-- Why a stream failed or ran short (R90, R95). -/
inductive Reason where
  | noSlot
  | contention
deriving DecidableEq, Repr

/-- The mark of a slot frame (R4). -/
inductive Mark where
  | claim
  | data
  | fill
  | final
deriving DecidableEq, Repr

/-- The fields of a slot frame (R4); the check word is the line interface's. -/
structure SlotFrame where
  mark     : Mark
  owner    : Address
  tag      : Byte
  sequence : Byte
  payload  : Payload
deriving DecidableEq, Repr

/-- The fields of a beacon frame (R5); the check word is the line interface's. -/
structure BeaconFrame where
  sender    : Address
  position  : Position
  founder   : Address
  cycle     : Half
  occupancy : SlotFlags
deriving DecidableEq, Repr

/-- A frame of either kind. -/
inductive Frame where
  | slot   (f : SlotFrame)
  | beacon (b : BeaconFrame)
deriving DecidableEq, Repr

/-- A frame report of the receiver (R7): the frame, absent where it is not well formed, and its bit times. -/
structure FrameReport where
  frame    : Option Frame
  firstBit : Time
  lastBit  : Time
deriving DecidableEq, Repr

/-- A stretch of carrier on the pair: when it began and its last level change (R8). -/
structure Span where
  begins : Time
  ends   : Time
deriving DecidableEq, Repr

/-- What the slot observer has gathered for the division in progress (R8). -/
structure Reports where
  frames   : List FrameReport
  jams     : List Time
  stretches : List Span
deriving DecidableEq, Repr

/-- How far the line interface has come with a transmission: the frame is handed over at the opening of its
division, sent from the lead-in on (R6), and replaced by jam from a read-back mismatch on (R11). -/
inductive Stage where
  | handedOver
  | sending
  | jamming
deriving DecidableEq, Repr

/-- The transmission of the division in progress (R6, R11). -/
structure Transmission where
  frame : Frame
  stage : Stage
deriving DecidableEq, Repr

/-- The boundaries of a cycle at which the timeline unit raises its events (R2). -/
inductive Boundary where
  | cycleStart
  | positionOpen (p : Position)
  | positionClose (p : Position)
  | slotPhaseStart
  | slotBegin (k : SlotNo)
  | slotEnd (k : SlotNo)
  | cycleEnd
deriving DecidableEq, Repr

/-- The part of the timeline record that is present only on a timeline (R19), with the placement of the cycle
boundaries (R3): when the current cycle started, and which event the timeline unit raises next (R2). -/
structure Timeline where
  founder      : Address
  cycle        : Half
  startedAt    : Time
  nextBoundary : Boundary
deriving DecidableEq, Repr

/-- The configuration record (R23). -/
structure Configuration where
  address         : Address
  seed            : Half
  founderEligible : Bool
  beaconEligible  : Bool
deriving DecidableEq, Repr

/-- The listen timer (R25): stopped, counting down, or held by carrier, with its remaining microseconds. -/
inductive ListenTimer where
  | stopped
  | counting (remaining : Nat)
  | held (remaining : Nat)
deriving DecidableEq, Repr

/-- The station counters (R16, R42, R133), each 16 bits and saturating. -/
structure Counters where
  cleanBeacons   : Half
  beaconClashes  : Half
  cycleSlips     : Half
  foreignIgnored : Half
  collidedSlots  : Half
  damagedSlots   : Half
  receiveDrops   : Half
deriving DecidableEq, Repr

/-- A slot map entry with the fields of its state (R58). `held none` is HELD(absent). -/
inductive MapEntry where
  | unknown (silence : Nat)
  | free
  | held (holder : Option (Address × Byte)) (silence : Nat)
  | cooling (remaining : Nat)
  | probe (lane : LaneNo) (stream : StreamNo)
  | mine (stream : StreamNo) (conflicts : Nat) (finalPending : Bool)
deriving DecidableEq, Repr

/-- The record of a busy claim lane (R83). -/
structure Lane where
  stream     : StreamNo
  slot       : SlotNo
  cleanCount : Nat
deriving DecidableEq, Repr

/-- The transmit stream states (R105). -/
inductive StreamState where
  | idle
  | claiming
  | live
  | closing
  | failed
deriving DecidableEq, Repr

/-- A block in its buffer of the pool (R143). -/
structure Block where
  buffer : BufferNo
  data   : Payload
deriving DecidableEq, Repr

/-- A transmit stream record (R104) with the claim fields of R84; its number is its place in the table. -/
structure Stream where
  state       : StreamState
  tag         : Byte
  wanted      : Nat
  held        : List SlotNo
  attempts    : Nat
  backoff     : Nat
  deferral    : Nat
  shortPosted : Bool
  queue       : List Block
  sequence    : Byte
  blocksSent  : Half
  underruns   : Half
  slotsLost   : Half
  failure     : Option Reason
deriving DecidableEq, Repr

/-- What becomes of the in-transit block on a COLLIDED outcome (R106, R113). -/
inductive Disposal where
  | returnToQueue
  | freeBuffer
deriving DecidableEq, Repr

/-- The in-transit block (R106). -/
structure InTransit where
  stream   : StreamNo
  slot     : SlotNo
  block    : Block
  disposal : Disposal
deriving DecidableEq, Repr

/-- A stored block record (R132), with the buffer it is in (R143). -/
structure StoredBlock where
  buffer   : BufferNo
  entry    : EntryNo
  source   : Address
  tag      : Byte
  cycle    : Half
  slot     : SlotNo
  sequence : Byte
  gap      : Byte
  payload  : Payload
deriving DecidableEq, Repr

/-- The subscription states (R126). -/
inductive SubState where
  | idle
  | waiting
  | active
  | stale
  | ended
deriving DecidableEq, Repr

/-- A subscription record (R125); its entry number is its place in the table. -/
structure Subscription where
  state      : SubState
  source     : Address
  tag        : Byte
  expected   : Option Byte
  quietCount : Nat
  presence   : Bool
  queue      : List StoredBlock
  stored     : Half
  dropped    : Half
deriving DecidableEq, Repr

/-- An event with the subject and detail of its kind (R152, R153). -/
inductive Event where
  | stationState (state : StationState) (cause : Cause)
  | addressClash
  | streamLive (stream : StreamNo) (slot : SlotNo)
  | streamShort (stream : StreamNo) (reason : Reason)
  | streamLost (stream : StreamNo) (slot : SlotNo)
  | streamFailed (stream : StreamNo) (reason : Reason)
  | streamClosed (stream : StreamNo)
  | subActive (entry : EntryNo) (slot : SlotNo)
  | subStale (entry : EntryNo)
  | subEnded (entry : EntryNo) (slot : SlotNo)
  | overflow
deriving DecidableEq, Repr

/-- An event record: the event and its optional cycle number (R152). -/
structure EventRecord where
  event : Event
  cycle : Option Half
deriving DecidableEq, Repr

/-- The status codes (R169). -/
inductive Status where
  | ok
  | empty
  | badState
  | badArg
  | busy
  | duplicate
  | full
  | poolEmpty
  | locked
  | badCode
deriving DecidableEq, Repr

/-- The queue whose head a consuming read returned (R161). -/
inductive CommitTarget where
  | eventQueue
  | receiveQueue (entry : EntryNo)
deriving DecidableEq, Repr

/-- What the link holds of a taken request: its code byte, status and response, and the pending commit of a
consuming read that returned OK (R161). -/
structure Taken where
  code     : Byte
  status   : Status
  response : List Byte
  commit   : Option CommitTarget
deriving DecidableEq, Repr

/-- The transaction record (R161), each phase with the fields that are present in it. -/
inductive Link where
  | idle
  | code
  | arguments (code : Byte) (received : List Byte)
  | turnaround (taken : Taken)
  | status (taken : Taken)
  | response (taken : Taken) (bytesSent : Nat)
  | done
deriving DecidableEq, Repr

/-- How the receiver last started (R17), and so which frames on the pair it does not receive. -/
inductive Receiver where
  /-- With no frame on the pair. -/
  | clear
  /-- Switched on at this moment by START: no frame that began before it is received. -/
  | switchedOn (moment : Time)
  /-- Started afresh at this moment, having been on: a frame then under way is abandoned, and one that has just ended
  is not. -/
  | restarted (moment : Time)
deriving DecidableEq, Repr

/-- The whole part, the levels its pins see, and the queue of commands waiting to be taken. -/
structure State where
  /-- The commands waiting, the next one first. -/
  pending : List Instr
  /-- The reset input RESET_N is asserted (R20, R178). -/
  resetHeld : Bool
  /-- The select input HSEL is low (R161). -/
  selectLow : Bool
  /-- Since when the pair has carried activity; absent while it is quiet (R7). -/
  carrier : Option Time
  /-- How the receiver last started (R17, log entry 17). -/
  receiver : Receiver
  station : StationState
  config : Configuration
  /-- Founder, cycle number and boundaries; absent off a timeline (R19). -/
  timeline : Option Timeline
  holdover : Nat
  settle : Nat
  listenTimer : ListenTimer
  /-- An address clash has been posted in this session (R51, R70). -/
  sessionFlag : Bool
  counters : Counters
  /-- Draws made from the generator since CONFIGURE seeded it (R23). -/
  draws : Nat
  drawnPosition : Option Position
  beaconHeard : Bool
  /-- Slots active in the cycle in progress (R15). -/
  activityCurrent : SlotFlags
  /-- Slots active in the cycle before it (R15). -/
  activityPrevious : SlotFlags
  reports : Reports
  /-- The line interface's transmission, from the opening of its division to the close (R6). -/
  tx : Option Transmission
  map : Vector MapEntry 48
  claimQueue : List StreamNo
  /-- The two claim lanes; an idle lane is absent (R83). -/
  lanes : Vector (Option Lane) 2
  streams : Vector Stream 8
  inTransit : Option InTransit
  subs : Vector Subscription 16
  /-- The free list of the block pool, whose order says nothing (R143). -/
  freeList : List BufferNo
  events : List EventRecord
  link : Link
  /-- The MODEL's own field: how many free choices of `Config.quietCountFirst` and `Config.bufferGiven` have been
  used. -/
  choices : Nat
deriving DecidableEq, Repr

/-- A step of this machine stops with no fault: the manual names nothing that stops the part, and an event that
cannot arise where it is commanded changes nothing (log entry 9). No constructor, so none is raised: safe. -/
inductive Fault where
deriving DecidableEq, Repr

/-- Why a command is refused. -/
inductive Refusal where
  /-- The command has no meaning in this model yet. Raised by `exec`'s refused arms only, of which there is none
  now; safe, since the machine stops. -/
  | notModelled (mnemonic : String)
deriving DecidableEq, Repr

/-- The configuration record while clear (R23). -/
def Configuration.clear : Configuration :=
  { address := 0, seed := 0, founderEligible := false, beaconEligible := false }

/-- The station counters after device reset (R20). -/
def Counters.zero : Counters :=
  { cleanBeacons := 0, beaconClashes := 0, cycleSlips := 0, foreignIgnored := 0, collidedSlots := 0,
    damagedSlots := 0, receiveDrops := 0 }

/-- No reports gathered. -/
def Reports.empty : Reports := { frames := [], jams := [], stretches := [] }

/-- No slot active (R15). -/
def noSlots : SlotFlags := Vector.replicate 48 false

/-- A stream record after device reset (R104). -/
def Stream.reset : Stream :=
  { state := .idle, tag := 0, wanted := 1, held := [], attempts := 0, backoff := 0, deferral := 0,
    shortPosted := false, queue := [], sequence := 0, blocksSent := 0, underruns := 0, slotsLost := 0,
    failure := .none }

/-- A subscription record after device reset (R125). -/
def Subscription.reset : Subscription :=
  { state := .idle, source := 0, tag := 0, expected := .none, quietCount := 0, presence := false, queue := [],
    stored := 0, dropped := 0 }

/-- The part after a device reset (R20), with the reset input released, select high and the pair quiet (log
entry 1). -/
def State.reset : State :=
  { pending := []
    resetHeld := false
    selectLow := false
    carrier := .none
    receiver := .clear
    station := .unconfigured
    config := Configuration.clear
    timeline := .none
    holdover := 0
    settle := 0
    listenTimer := .stopped
    sessionFlag := false
    counters := Counters.zero
    draws := 0
    drawnPosition := .none
    beaconHeard := false
    activityCurrent := noSlots
    activityPrevious := noSlots
    reports := Reports.empty
    tx := .none
    map := Vector.replicate 48 (.unknown 0)
    claimQueue := []
    lanes := Vector.replicate 2 .none
    streams := Vector.replicate 8 Stream.reset
    inTransit := .none
    subs := Vector.replicate 16 Subscription.reset
    freeList := List.finRange Config.poolBuffers
    events := []
    link := .idle
    choices := 0 }

end Sys2Proof.Machine
end

