-- ==== Sys2Proof/Machine/Frames.lean ====
section
/-! DEFINITION. The layouts of R174 to R177: frames and their check word on the slot bus, and the bytes of requests,
status codes, records and events on the host link. -/

namespace Sys2Proof.Machine

/-! ## Bytes -/

/-- The two bytes of a 16-bit number, most significant first (R175, R177). -/
def halfBytes (h : Half) : List Byte := [h.extractLsb' 8 8, h.extractLsb' 0 8]

/-- The bits of a byte in the order in which they are sent, most significant first, on the line and on the host link
(R162, R175, R177). -/
def byteBits (b : Byte) : List Bool := [7, 6, 5, 4, 3, 2, 1, 0].map b.getLsbD

/-- The byte whose bits come in this order, most significant first (R162). -/
def byteOfBits (bits : Vector Bool 8) : Byte :=
  BitVec.ofBoolListBE [bits[0], bits[1], bits[2], bits[3], bits[4], bits[5], bits[6], bits[7]]

/-- A small count as one byte. -/
def natByte (n : Nat) : Byte := BitVec.ofNat 8 n

/-- A yes or no as bit `i` of a flags byte (R177). -/
def flagBit (i : Nat) (b : Bool) : Byte := if b then (1#8 <<< i) else 0#8

/-- The flag of slot `n`, clear outside 0 to 47. -/
def slotFlag (flags : SlotFlags) (n : Nat) : Bool := if h : n < 48 then flags[n] else false

/-- The byte of an occupancy summary whose bit 7 is slot `first` and whose bit 0 is slot `first + 7` (R175). -/
def summaryByte (flags : SlotFlags) (first : Nat) : Byte :=
  BitVec.ofBoolListBE
    [slotFlag flags first, slotFlag flags (first + 1), slotFlag flags (first + 2), slotFlag flags (first + 3),
     slotFlag flags (first + 4), slotFlag flags (first + 5), slotFlag flags (first + 6), slotFlag flags (first + 7)]

/-! ## The check word and the frames (R174, R175) -/

/-- One bit of the cyclic check with generator x^16 + x^12 + x^5 + 1 (R175). -/
def checkBit (check : Half) (bit : Bool) : Half :=
  if check.msb != bit then (check <<< 1) ^^^ 0x1021#16 else check <<< 1

/-- One byte of the cyclic check, most significant bit first (R175). -/
def checkByte (check : Half) (b : Byte) : Half :=
  (byteBits b).foldl checkBit check

/-- The check word over field bytes, from initial value FFFFh (R175). -/
def checkWord (bytes : List Byte) : Half := bytes.foldl checkByte 0xFFFF#16

/-- Field bytes with their check word appended, as the line interface sends them (R4, R5). -/
def withCheck (bytes : List Byte) : List Byte := bytes ++ halfBytes (checkWord bytes)

/-- Whether the check word over the first `n` bytes is the two bytes after them (R175). -/
def checkVerifies (n : Nat) (bytes : List Byte) : Bool :=
  decide (bytes.length = n + 2) && decide (bytes.drop n = halfBytes (checkWord (bytes.take n)))

/-- The two frame kinds, told apart by the start byte of the start pattern (R174). -/
inductive FrameKind where
  | slot
  | beacon
deriving DecidableEq, Repr

/-- The field bytes of a frame of this kind (R174). -/
def FrameKind.fieldBytes : FrameKind → Nat
  | .slot => 27
  | .beacon => 10

/-- The bytes of a frame of this kind after its start pattern: the fields and the check word (R174). -/
def FrameKind.wireBytes (kind : FrameKind) : Nat := kind.fieldBytes + 2

/-- How long a frame of this kind lasts, from the beginning of its start pattern to the end of its last bit (R174). -/
def FrameKind.duration (kind : FrameKind) : Time := Config.bitTime * (8 * (2 + kind.wireBytes))

/-- The preamble byte that opens every frame (R174). -/
def preamble : Byte := 0xAA

/-- The start byte of a frame of this kind (R174). -/
def FrameKind.startByte : FrameKind → Byte
  | .slot => 0x5C
  | .beacon => 0x3A

/-- The 16-bit start pattern, preamble and start byte (R174). -/
def FrameKind.startPattern (kind : FrameKind) : Half := preamble ++ kind.startByte

/-- The kind that a start pattern gives a frame report. Any other start byte gives no frame report (R174). -/
def FrameKind.ofPattern (pattern : Half) : Option FrameKind :=
  if pattern = FrameKind.slot.startPattern then some .slot
  else if pattern = FrameKind.beacon.startPattern then some .beacon
  else none

/-- The mark codes (R175). -/
def Mark.code : Mark → BitVec 3
  | .claim => 1
  | .data => 2
  | .fill => 3
  | .final => 4

/-- The mark of a mark code; codes 0h and 5h to 7h have none (R175). -/
def Mark.ofCode (c : BitVec 3) : Option Mark :=
  match c.toNat with
  | 1 => some .claim
  | 2 => some .data
  | 3 => some .fill
  | 4 => some .final
  | _ => none

/-- The 27 field bytes of a slot frame (R175). -/
def SlotFrame.fields (f : SlotFrame) : List Byte :=
  (f.mark.code ++ f.owner) :: f.tag :: f.sequence :: f.payload.toList

/-- The 10 field bytes of a beacon frame, its fill bits 0 (R175). -/
def BeaconFrame.fields (b : BeaconFrame) : List Byte :=
  (b.sender ++ BitVec.ofNat 3 b.position.val) :: (b.founder ++ 0#3) :: (halfBytes b.cycle
    ++ [summaryByte b.occupancy 0, summaryByte b.occupancy 8, summaryByte b.occupancy 16,
        summaryByte b.occupancy 24, summaryByte b.occupancy 32, summaryByte b.occupancy 40])

/-- The kind of a frame. -/
def Frame.kind : Frame → FrameKind
  | .slot _ => .slot
  | .beacon _ => .beacon

/-- The field bytes of a frame (R175). -/
def Frame.fields : Frame → List Byte
  | .slot f => f.fields
  | .beacon b => b.fields

/-- What the line carries for a frame: its start pattern, its fields and the check word (R174, R175). -/
def Frame.wire (f : Frame) : List Byte := halfBytes f.kind.startPattern ++ withCheck f.fields

/-- The levels of one bit on the line, a level for each half of it, true for high: a 1 is sent high then low, and a 0
low then high (R174). -/
def bitLevels (bit : Bool) : List Bool := [bit, !bit]

/-- The levels of one byte on the line, most significant bit first (R175). -/
def byteLevels (b : Byte) : List Bool := (byteBits b).flatMap bitLevels

/-- The levels of a frame on the line, one for each half of a bit time from the lead-in on (R174). -/
def Frame.levels (f : Frame) : List Bool := f.wire.flatMap byteLevels

/-- The level of jam in its half bit time `n`: high for 1.5 bit times and then low for 1.5, over and over (R174). -/
def jamLevel (n : Nat) : Bool := decide (n % 6 < 3)

/-- Byte `n` of a list of bytes, zero past its end. -/
def byteAt (bytes : List Byte) (n : Nat) : Byte := bytes.getD n 0

/-- A slot frame from the bytes after the start pattern, if it is well formed (R4): its check word verifies, its mark is
one of the four codes and its owner is 1 to 31. -/
def SlotFrame.parse (bytes : List Byte) : Option SlotFrame :=
  if checkVerifies FrameKind.slot.fieldBytes bytes then
    match Mark.ofCode ((byteAt bytes 0).extractLsb' 5 3) with
    | none => none
    | some mark =>
      if (byteAt bytes 0).extractLsb' 0 5 = 0#5 then none
      else some { mark := mark, owner := (byteAt bytes 0).extractLsb' 0 5, tag := byteAt bytes 1,
                  sequence := byteAt bytes 2, payload := Vector.ofFn fun i => byteAt bytes (3 + i.val) }
  else none

/-- A beacon frame from the bytes after the start pattern, if it is well formed (R5): its check word verifies and its sender and
founder are 1 to 31. Fill bits are not read (R175). -/
def BeaconFrame.parse (bytes : List Byte) : Option BeaconFrame :=
  if checkVerifies FrameKind.beacon.fieldBytes bytes then
    if (byteAt bytes 0).extractLsb' 3 5 = 0#5 ∨ (byteAt bytes 1).extractLsb' 3 5 = 0#5 then none
    else some { sender := (byteAt bytes 0).extractLsb' 3 5
                position := ((byteAt bytes 0).extractLsb' 0 3).toFin
                founder := (byteAt bytes 1).extractLsb' 3 5
                cycle := byteAt bytes 2 ++ byteAt bytes 3
                occupancy := Vector.ofFn fun k => (byteAt bytes (4 + k.val / 8)).getMsbD (k.val % 8) }
  else none

/-- The frame that a frame report gives, its kind read from the start pattern, absent where it is not well formed (R4,
R5, R7, R174). -/
def Frame.parse (pattern : Half) (bytes : List Byte) : Option Frame :=
  match FrameKind.ofPattern pattern with
  | some .slot => (SlotFrame.parse bytes).map .slot
  | some .beacon => (BeaconFrame.parse bytes).map .beacon
  | none => none

/-! ## Request codes (R162, R176) -/

/-- The fifteen requests (R176). -/
inductive RequestCode where
  | configure
  | start
  | stop
  | reset
  | openTx
  | closeTx
  | push
  | subscribe
  | unsubscribe
  | pop
  | readEvent
  | readStation
  | readStream
  | readSub
  | readSlot
deriving DecidableEq, Repr

/-- The code byte of a request (R176). -/
def RequestCode.byte : RequestCode → Byte
  | .configure => 0x10
  | .start => 0x11
  | .stop => 0x12
  | .reset => 0x1F
  | .openTx => 0x20
  | .closeTx => 0x21
  | .push => 0x22
  | .subscribe => 0x30
  | .unsubscribe => 0x31
  | .pop => 0x32
  | .readEvent => 0x40
  | .readStation => 0x41
  | .readStream => 0x42
  | .readSub => 0x43
  | .readSlot => 0x44

/-- The request a code byte names; every other code is unknown (R166, R176). -/
def RequestCode.ofByte (b : Byte) : Option RequestCode :=
  match b.toNat with
  | 0x10 => some .configure
  | 0x11 => some .start
  | 0x12 => some .stop
  | 0x1F => some .reset
  | 0x20 => some .openTx
  | 0x21 => some .closeTx
  | 0x22 => some .push
  | 0x30 => some .subscribe
  | 0x31 => some .unsubscribe
  | 0x32 => some .pop
  | 0x40 => some .readEvent
  | 0x41 => some .readStation
  | 0x42 => some .readStream
  | 0x43 => some .readSub
  | 0x44 => some .readSlot
  | _ => none

/-- How many argument bytes follow a code byte (R162). -/
def RequestCode.argumentBytes : RequestCode → Nat
  | .configure => 4
  | .start | .stop | .reset | .readEvent | .readStation => 0
  | .openTx | .subscribe => 3
  | .closeTx | .unsubscribe | .pop | .readStream | .readSub | .readSlot => 1
  | .push => 25

/-- The choices byte of CONFIGURE (R176). -/
def choicesByte (founderEligible beaconEligible : Bool) : Byte :=
  flagBit 0 founderEligible ||| flagBit 1 beaconEligible

/-! ## Value sets (R176) -/

/-- Status codes (R176). -/
def Status.byte : Status → Byte
  | .ok => 0x01
  | .empty => 0x02
  | .badState => 0x03
  | .badArg => 0x04
  | .busy => 0x05
  | .duplicate => 0x06
  | .full => 0x07
  | .poolEmpty => 0x08
  | .locked => 0x09
  | .badCode => 0x0A

/-- Station state codes (R176). -/
def StationState.byte : StationState → Byte
  | .unconfigured => 0
  | .ready => 1
  | .listen => 2
  | .settle => 3
  | .active => 4
  | .leaving => 5

/-- Stream state codes (R176). -/
def StreamState.byte : StreamState → Byte
  | .idle => 0
  | .claiming => 1
  | .live => 2
  | .closing => 3
  | .failed => 4

/-- Subscription state codes (R176). -/
def SubState.byte : SubState → Byte
  | .idle => 0
  | .waiting => 1
  | .active => 2
  | .stale => 3
  | .ended => 4

/-- Map entry state codes (R176). -/
def MapEntry.stateByte : MapEntry → Byte
  | .unknown _ => 0
  | .free => 1
  | .held .. => 2
  | .cooling _ => 3
  | .probe .. => 4
  | .mine .. => 5

/-- Reason codes (R176). -/
def Reason.byte : Reason → Byte
  | .noSlot => 1
  | .contention => 2

/-- Cause codes (R176). -/
def Cause.byte : Cause → Byte
  | .configure => 1
  | .start => 2
  | .adopt => 3
  | .found => 4
  | .settled => 5
  | .holdover => 6
  | .merge => 7
  | .stop => 8
  | .left => 9

/-- The encoding of absent where a field's values leave room (R176, R177). -/
def absentByte : Byte := 0xFF

/-- A slot number as one byte. -/
def slotByte (k : SlotNo) : Byte := natByte k.val

/-- Event kind codes (R176). -/
def Event.kindByte : Event → Byte
  | .stationState .. => 1
  | .addressClash => 2
  | .streamLive .. => 3
  | .streamShort .. => 4
  | .streamLost .. => 5
  | .streamFailed .. => 6
  | .streamClosed .. => 7
  | .subActive .. => 8
  | .subStale .. => 9
  | .subEnded .. => 10
  | .overflow => 11

/-- The subject byte of an event record, by kind (R177). -/
def Event.subjectByte : Event → Byte
  | .stationState state _ => state.byte
  | .streamLive i _ | .streamShort i _ | .streamLost i _ | .streamFailed i _ | .streamClosed i => natByte i.val
  | .subActive e _ | .subStale e | .subEnded e _ => natByte e.val
  | .addressClash | .overflow => absentByte

/-- The detail byte of an event record, by kind (R177). -/
def Event.detailByte : Event → Byte
  | .stationState _ cause => cause.byte
  | .streamShort _ reason | .streamFailed _ reason => reason.byte
  | .streamLive _ k | .streamLost _ k | .subActive _ k | .subEnded _ k => slotByte k
  | .addressClash | .streamClosed _ | .subStale _ | .overflow => absentByte

/-! ## Responses (R177) -/

/-- The READ_EVENT response (R177). -/
def EventRecord.bytes (r : EventRecord) : List Byte :=
  [r.event.kindByte, r.event.subjectByte, r.event.detailByte, flagBit 0 r.cycle.isSome]
    ++ halfBytes (r.cycle.getD 0)

/-- The POP response (R177). -/
def StoredBlock.bytes (b : StoredBlock) : List Byte :=
  [natByte b.entry.val, b.source.setWidth 8, b.tag] ++ halfBytes b.cycle
    ++ [slotByte b.slot, b.sequence, b.gap] ++ b.payload.toList

/-- The READ_SUB response of entry `e` (R141, R177). -/
def Subscription.bytes (e : EntryNo) (r : Subscription) : List Byte :=
  [natByte e.val, r.state.byte, r.source.setWidth 8, r.tag,
   flagBit 0 r.expected.isSome ||| flagBit 1 r.presence, r.expected.getD 0, natByte r.quietCount,
   natByte r.queue.length] ++ halfBytes r.stored ++ halfBytes r.dropped

/-- The READ_STREAM response of stream `i` (R122, R177); `inTransit` says whether the in-transit block is its
own. -/
def Stream.bytes (i : StreamNo) (inTransit : Bool) (r : Stream) : List Byte :=
  [natByte i.val, r.state.byte, r.tag, natByte r.wanted, natByte r.held.length]
    ++ (r.held.map slotByte ++ List.replicate 4 absentByte).take 4
    ++ [natByte r.attempts, natByte r.backoff, natByte r.deferral,
        flagBit 0 r.shortPosted ||| flagBit 1 inTransit, natByte r.queue.length, r.sequence]
    ++ halfBytes r.blocksSent ++ halfBytes r.underruns ++ halfBytes r.slotsLost
    ++ [r.failure.elim 0 Reason.byte]

/-- The READ_SLOT response of slot `k` (R80, R177); `cleanCount` is that of the lane carrying a PROBE entry. -/
def MapEntry.bytes (k : SlotNo) (cleanCount : Nat) (entry : MapEntry) : List Byte :=
  [slotByte k, entry.stateByte] ++
    match entry with
    | .unknown n => [absentByte, 0, natByte n, absentByte, absentByte, absentByte, absentByte, absentByte]
    | .free => [absentByte, 0, 0, absentByte, absentByte, absentByte, absentByte, absentByte]
    | .held none n => [absentByte, 0, natByte n, absentByte, absentByte, absentByte, absentByte, absentByte]
    | .held (some (owner, tag)) n =>
        [owner.setWidth 8, tag, natByte n, absentByte, absentByte, absentByte, absentByte, absentByte]
    | .cooling n => [absentByte, 0, natByte n, absentByte, absentByte, absentByte, absentByte, absentByte]
    | .probe lane i =>
        [absentByte, 0, 0, natByte lane.val, natByte i.val, natByte cleanCount, absentByte, absentByte]
    | .mine i conflicts finalPending =>
        [absentByte, 0, 0, absentByte, natByte i.val, absentByte, natByte conflicts, flagBit 0 finalPending]

end Sys2Proof.Machine
end

