-- ==== Sys2Proof/Machine/Ops.lean ====
section
/-! DEFINITION. The operations that every block shares: writing one row of a table, counters, draws, the boundaries
of a cycle, the event queue, the block pool and the device reset. -/

namespace Sys2Proof.Machine

/-! ## Counters and small numbers -/

/-- One more in a 16-bit counter, which stays at 65535 (section 2.1 of 00_scope.md). -/
def bump (c : Half) : Half := if c = 0xFFFF#16 then c else c + 1

/-! ## Station states (R7, R17) -/

/-- The station is on a timeline: the timeline unit raises cycle events (R2). -/
def StationState.onTimeline : StationState → Bool
  | .settle | .active | .leaving => true
  | .unconfigured | .ready | .listen => false

/-- The receiver is on (R7). -/
def StationState.receiverOn : StationState → Bool
  | .listen | .settle | .active | .leaving => true
  | .unconfigured | .ready => false

/-! ## Tables -/

/-- Write slot map entry `k`. -/
def State.setEntry (s : State) (k : SlotNo) (e : MapEntry) : State := { s with map := s.map.set k e }

/-- Change every slot map entry by its slot number and value. -/
def State.mapEntries (s : State) (f : SlotNo → MapEntry → MapEntry) : State :=
  { s with map := Vector.ofFn fun k => f k s.map[k] }

/-- Change transmit stream record `i`. -/
def State.modStream (s : State) (i : StreamNo) (f : Stream → Stream) : State :=
  { s with streams := s.streams.set i (f s.streams[i]) }

/-- Change every transmit stream record by its number and value. -/
def State.mapStreams (s : State) (f : StreamNo → Stream → Stream) : State :=
  { s with streams := Vector.ofFn fun i => f i s.streams[i] }

/-- Change subscription record `e`. -/
def State.modSub (s : State) (e : EntryNo) (f : Subscription → Subscription) : State :=
  { s with subs := s.subs.set e (f s.subs[e]) }

/-- Change every subscription record. -/
def State.mapSubs (s : State) (f : Subscription → Subscription) : State :=
  { s with subs := Vector.ofFn fun e => f s.subs[e] }

/-- Write claim lane `l`. -/
def State.setLane (s : State) (l : LaneNo) (r : Option Lane) : State := { s with lanes := s.lanes.set l r }

/-! ## The generator (section 2.4 of 00_scope.md, R23) -/

/-- The next value drawn from 0 to `n - 1`. -/
def State.drawn (s : State) (n : Nat) : Nat := Config.draw s.config.seed s.config.address s.draws % n

/-- The generator after one more draw. -/
def State.drawUsed (s : State) : State := { s with draws := s.draws + 1 }

/-! ## The boundaries of a cycle (R1, R2) -/

/-- The timeline record while the station raises cycle events (R2). -/
def State.running (s : State) : Option Timeline := if s.station.onTimeline then s.timeline else none

/-- The timeline record, if `b` is the next event the timeline unit raises (R2). -/
def State.atBoundary (s : State) (b : Boundary) : Option Timeline :=
  match s.running with
  | none => none
  | some t => if t.nextBoundary = b then some t else none

/-- `b` is the next event to be raised. -/
def State.nextIs (s : State) (b : Boundary) : State :=
  { s with timeline := s.timeline.map fun t => { t with nextBoundary := b } }

/-- What follows beacon position `p`: the next position, or the slot-phase start (R2). -/
def Boundary.afterPosition (p : Position) : Boundary :=
  if h : p.val + 1 < 8 then .positionOpen ⟨p.val + 1, h⟩ else .slotPhaseStart

/-- What follows slot occurrence `k`: the next occurrence, or the cycle end (R2). -/
def Boundary.afterSlot (k : SlotNo) : Boundary :=
  if h : k.val + 1 < 48 then .slotBegin ⟨k.val + 1, h⟩ else .cycleEnd

/-- When beacon position `p` opens (R1). -/
def Timeline.positionOpens (t : Timeline) (p : Position) : Time := t.startedAt + Config.positionTime * p.val

/-- When beacon position `p` closes (R1). -/
def Timeline.positionCloses (t : Timeline) (p : Position) : Time := t.positionOpens p + Config.positionTime

/-- When slot occurrence `k` opens (R1). -/
def Timeline.slotOpens (t : Timeline) (k : SlotNo) : Time :=
  t.startedAt + Config.slotPhaseTime + Config.slotTime * k.val

/-- When slot occurrence `k` closes (R1). -/
def Timeline.slotCloses (t : Timeline) (k : SlotNo) : Time := t.slotOpens k + Config.slotTime

/-- When the cycle end is raised, at the opening of the tail (R1, R2). -/
def Timeline.ends (t : Timeline) : Time := t.startedAt + Config.tailTime

/-- Where a beacon places the start of its cycle: 12 × p + 1.0 µs before its first bit (R3). -/
def BeaconFrame.placedStart (b : BeaconFrame) (firstBit : Time) : Time :=
  firstBit - (Config.positionTime * b.position.val + Config.leadInTime)

/-! ## The event queue (R153, R154) -/

/-- The station's cycle number, absent off a timeline (R19, R153). -/
def State.cycleNumber (s : State) : Option Half := s.timeline.map (·.cycle)

/-- How the event queue takes an arriving record (R154). -/
def enqueueEvent (queue : List EventRecord) (r : EventRecord) : List EventRecord :=
  if queue.any (fun q => q.event = .overflow) then queue
  else if queue.length + 1 < Config.eventRecords then queue ++ [r]
  else queue ++ [{ event := .overflow, cycle := r.cycle }]

/-- Post an event with the station's cycle number as it stands (R153). -/
def State.post (s : State) (e : Event) : State :=
  { s with events := enqueueEvent s.events { event := e, cycle := s.cycleNumber } }

/-- Post several events of one change, in order (R155). -/
def State.postAll (s : State) (es : List Event) : State := es.foldl State.post s

/-- The interrupt output is asserted while the event queue holds a record (R159). -/
def State.interruptAsserted (s : State) : Bool := !s.events.isEmpty

/-- The level of the pin HINT, true for high: driven low while asserted and high while deasserted (R178). -/
def State.hint (s : State) : Bool := !s.interruptAsserted

/-! ## The block pool (R143 to R149) -/

/-- The free count: the number of buffers on the free list (R143). -/
def State.freeBuffers (s : State) : Nat := s.freeList.length

/-- These buffers go back to the free list (R147). -/
def State.release (s : State) (bs : List BufferNo) : State := { s with freeList := s.freeList ++ bs }

/-- The buffer that the pool gives to an allocation taken now, absent where the free list is empty (R145, R146). -/
def State.givenBuffer (s : State) : Option BufferNo :=
  s.freeList[Config.bufferGiven s.choices % s.freeList.length]?

/-- The buffer given leaves the free list (R143). -/
def State.allocate (s : State) (b : BufferNo) : State :=
  { s with freeList := s.freeList.erase b, choices := s.choices + 1 }

/-- The buffers of a transmit block queue, head first. -/
def Stream.buffers (r : Stream) : List BufferNo := r.queue.map (·.buffer)

/-- The buffers of a receive queue, head first. -/
def Subscription.buffers (r : Subscription) : List BufferNo := r.queue.map (·.buffer)

/-- The buffers in all transmit queues, by ascending stream number (R143). -/
def State.txBuffers (s : State) : List BufferNo := s.streams.toList.flatMap Stream.buffers

/-- The buffers in all receive queues, by ascending entry number (R143). -/
def State.rxBuffers (s : State) : List BufferNo := s.subs.toList.flatMap Subscription.buffers

/-- Every buffer at the place where it is: free, in a transmit queue, in transit or in a receive queue (R143). -/
def State.buffers (s : State) : List BufferNo :=
  s.freeList ++ s.txBuffers ++ s.inTransit.toList.map (·.block.buffer) ++ s.rxBuffers

/-- Blocks in all transmit queues (R144). -/
def State.txQueued (s : State) : Nat := (s.streams.toList.map fun r => r.queue.length).sum

/-- Blocks in all receive queues (R144). -/
def State.rxQueued (s : State) : Nat := (s.subs.toList.map fun r => r.queue.length).sum

/-! ## The reset input and the device reset (R20, R21) -/

/-- Nothing changes while the reset input is held (R20). -/
def State.unlessHeld (s : State) (f : State → State) : State := if s.resetHeld then s else f s

/-- A device reset (R20, R21): every block takes its reset value. The levels at the pins, the waiting commands and
the model's own count of free choices are no part of a block; the link waits for select to rise where select is low
(R161, R167). -/
def State.deviceReset (s : State) : State :=
  { State.reset with
    pending := s.pending
    resetHeld := s.resetHeld
    selectLow := s.selectLow
    carrier := s.carrier
    link := if s.selectLow then .done else .idle
    choices := s.choices }

end Sys2Proof.Machine
end

