-- ==== Sys2Proof/Machine/Observer.lean ====
section
/-! DEFINITION. The line interface and the slot observer: what the pair carried in a division (R8, R9), the outcome
of the station's own transmission (R12), the activity record (R15) and the line counters (R16). -/

namespace Sys2Proof.Machine

/-- The four observation classes, CLEAN with what was heard (R8, R9). -/
inductive ObsClass (α : Type) where
  | silent
  | clean (heard : α)
  | collided
  | damaged
deriving DecidableEq, Repr

/-- The two outcomes of a transmission (R12). -/
inductive Outcome where
  | clean
  | collided
deriving DecidableEq, Repr

/-- A stretch of carrier that is present within a division. -/
def Span.meets (sp : Span) (opens closes : Time) : Bool := decide (sp.begins < closes) && decide (opens < sp.ends)

/-- The part of a stretch within a division lies within the bits of a frame. The manual does not say which instant of a
bit the times of a frame report name: DESIGN CHOICE (log entry 5), the first bit's time is its beginning and the last
bit's time is its end, so that the level change in the middle of the last bit (R174) lies within the frame. -/
def Span.inside (sp : Span) (opens closes firstBit lastBit : Time) : Bool :=
  decide (firstBit ≤ max sp.begins opens) && decide (min sp.ends closes ≤ lastBit)

/-- The stretches of carrier gathered, the one still present counted to the close (R8). -/
def Reports.spans (r : Reports) (carrier : Option Time) (closes : Time) : List Span :=
  match carrier with
  | none => r.stretches
  | some since => r.stretches ++ [{ begins := since, ends := closes }]

/-- A jam report was given within the division (R8, R12). -/
def Reports.jamWithin (r : Reports) (opens closes : Time) : Bool :=
  r.jams.any fun t => decide (opens ≤ t) && decide (t ≤ closes)

/-- The class of a division the station did not transmit in, by the first line of R8's table that applies. `pick`
reads a frame report that lies whole within the division and says what it counts as, or that it makes the division
DAMAGED. A frame received is itself carrier over its own bits. -/
def classify {α : Type} (r : Reports) (carrier : Option Time) (opens closes : Time)
    (pick : FrameReport → Option α) : ObsClass α :=
  if r.jamWithin opens closes then .collided
  else
    match r.frames with
    | [] => if (r.spans carrier closes).any (fun sp => sp.meets opens closes) then .damaged else .silent
    | [f] =>
      if opens ≤ f.firstBit ∧ f.lastBit ≤ closes ∧
          (r.spans carrier closes).all
            (fun sp => !sp.meets opens closes || sp.inside opens closes f.firstBit f.lastBit) then
        match pick f with
        | some heard => .clean heard
        | none => .damaged
      else .damaged
    | _ :: _ :: _ => .damaged

/-- In a slot occurrence a well-formed slot frame counts as CLEAN (R8). -/
def pickSlotFrame (f : FrameReport) : Option SlotFrame :=
  match f.frame with
  | some (.slot g) => some g
  | some (.beacon _) | none => none

/-- What a CLEAN beacon position carried (R9). -/
inductive HeardBeacon where
  | own (beacon : BeaconFrame) (firstBit : Time)
  | foreign (beacon : BeaconFrame)
deriving DecidableEq, Repr

/-- The three further tests of R9 on a clean beacon heard whole in position `p`. -/
def pickBeacon (t : Timeline) (p : Position) (f : FrameReport) : Option HeardBeacon :=
  match f.frame with
  | some (.beacon b) =>
    if b.founder = t.founder then
      if b.position = p ∧ (f.firstBit - (t.positionOpens p + Config.leadInTime)).natAbs < Config.bitTime.natAbs then
        some (.own b f.firstBit)
      else none
    else some (.foreign b)
  | some (.slot _) | none => none

/-- The class of slot occurrence `k` (R8). -/
def State.slotClass (s : State) (t : Timeline) (k : SlotNo) : ObsClass SlotFrame :=
  classify s.reports s.carrier (t.slotOpens k) (t.slotCloses k) pickSlotFrame

/-- The class of beacon position `p` (R9). -/
def State.positionClass (s : State) (t : Timeline) (p : Position) : ObsClass HeardBeacon :=
  classify s.reports s.carrier (t.positionOpens p) (t.positionCloses p) (pickBeacon t p)

/-- The outcome of the station's own transmission in a division (R12). -/
def State.outcome (s : State) (x : Transmission) (opens closes : Time) : Outcome :=
  if x.stage = .jamming ∨ s.reports.jamWithin opens closes then .collided else .clean

/-- A frame with these first and last bits was on the pair, not yet ended, when the receiver started (R17). -/
def Receiver.misses (r : Receiver) (firstBit lastBit : Time) : Bool :=
  match r with
  | .clear => false
  | .switchedOn moment => decide (firstBit < moment)
  | .restarted moment => decide (firstBit < moment) && decide (moment < lastBit)

/-- A report of this time comes after START, so START was taken no later (log entry 17). -/
def Receiver.reaches (r : Receiver) (time : Time) : Receiver :=
  match r with
  | .clear => .clear
  | .switchedOn moment => .switchedOn (min moment time)
  | .restarted moment => .restarted moment

/-- The receiver gives a report of this time in LISTEN, where it may have been switched on within a stretch of carrier
(R17). -/
def State.hears (s : State) (time : Time) : State :=
  if s.station = .listen then { s with receiver := s.receiver.reaches time } else s

/-- START switches the receiver on (R17): later than the pair began to carry, by a free value, where carrier is
present (log entry 17). -/
def State.switchOnReceiver (s : State) : State :=
  match s.carrier with
  | none => { s with receiver := .clear }
  | some since =>
    { s with receiver := .switchedOn (since + 1 + Config.startDelay s.choices), choices := s.choices + 1 }

/-- The receiver, having been on, starts afresh at this moment (R17). -/
def State.restartReceiver (s : State) (moment : Time) : State := { s with receiver := .restarted moment }

/-- The station's own frame or jam is on the pair, or has been in the division in progress (R6, R11). -/
def State.transmitting (s : State) : Bool :=
  match s.tx with
  | some x => x.stage != .handedOver
  | none => false

/-- A frame is handed over and waits for the lead-in (R6). -/
def State.awaitsLeadIn (s : State) : Bool :=
  match s.tx with
  | some x => x.stage == .handedOver
  | none => false

/-- The level on LINE_TX, true for high, half a bit time number `n` after the lead-in or after the mismatch: the levels
of the frame being sent and then silence, or those of jam (R11, R174, R178). Absent while nothing is sent. -/
def State.lineTx (s : State) (n : Nat) : Option Bool :=
  match s.tx with
  | some { frame := f, stage := .sending } => f.levels[n]?
  | some { frame := _, stage := .jamming } => some (jamLevel n)
  | some { frame := _, stage := .handedOver } => none
  | none => none

/-- The driver enable LINE_EN: high from the lead-in to the close of a division carrying a transmission (R178). -/
def State.lineEnable (s : State) : Bool := s.transmitting

/-- Hand a frame to the line interface at the opening of a division (R6). -/
def State.handOver (s : State) (f : Frame) : State := { s with tx := some { frame := f, stage := .handedOver } }

/-- The division in progress carries the station's own beacon or CLAIM (R37). -/
def State.carriesBeaconOrClaim (s : State) : Bool :=
  match s.tx with
  | some { frame := .beacon _, stage := _ } => true
  | some { frame := .slot f, stage := _ } => f.mark == .claim
  | none => false

/-- A division opens: the observer begins to gather its reports (R8). R8 does not say where a report counts that is taken
at the one instant at which a division closes and the next opens, after the close and before the opening: DESIGN CHOICE
(log entry 5), it counts in neither, whatever its times. -/
def State.openDivision (s : State) : State := { s with reports := Reports.empty }

/-- A division closes: the transmission is over and its reports are spent (R11, R12). -/
def State.closeDivision (s : State) : State := { s with tx := none, reports := Reports.empty }

/-- Set the current activity flag of slot `k` (R15). -/
def State.markActive (s : State) (k : SlotNo) : State :=
  { s with activityCurrent := s.activityCurrent.set k true }

/-- Clear both sets of the activity record (R15). -/
def State.clearActivity (s : State) : State := { s with activityCurrent := noSlots, activityPrevious := noSlots }

/-- Copy the current set into the previous set and clear it (R15). -/
def State.rotateActivity (s : State) : State :=
  { s with activityPrevious := s.activityCurrent, activityCurrent := noSlots }

/-- A COLLIDED class or outcome counts in collided slots observed (R16). -/
def State.countCollided (s : State) : State :=
  { s with counters := { s.counters with collidedSlots := bump s.counters.collidedSlots } }

/-- A DAMAGED class counts in damaged slots observed (R16). -/
def State.countDamaged (s : State) : State :=
  { s with counters := { s.counters with damagedSlots := bump s.counters.damagedSlots } }

/-- A beacon taken counts in clean beacons (R45, R47, R53, R55). -/
def State.countCleanBeacon (s : State) : State :=
  { s with counters := { s.counters with cleanBeacons := bump s.counters.cleanBeacons } }

/-- A COLLIDED beacon position counts in beacon clashes (R45, R46). -/
def State.countClash (s : State) : State :=
  { s with counters := { s.counters with beaconClashes := bump s.counters.beaconClashes } }

/-- A cycle number taken from a beacon counts in cycle slips (R48). -/
def State.countSlip (s : State) : State :=
  { s with counters := { s.counters with cycleSlips := bump s.counters.cycleSlips } }

/-- A foreign beacon of a higher founder counts in foreign beacons ignored (R54). -/
def State.countForeign (s : State) : State :=
  { s with counters := { s.counters with foreignIgnored := bump s.counters.foreignIgnored } }

/-- A dropped block counts in receive drops (R133). -/
def State.countDrop (s : State) : State :=
  { s with counters := { s.counters with receiveDrops := bump s.counters.receiveDrops } }

/-- The activity record and the line counters take the class of slot occurrence `k` (R15, R16). -/
def State.recordClass (s : State) (k : SlotNo) (c : ObsClass SlotFrame) : State :=
  match c with
  | .silent => s
  | .clean _ => s.markActive k
  | .collided => (s.markActive k).countCollided
  | .damaged => (s.markActive k).countDamaged

/-- The activity record and the line counters take the outcome of the station's own slot frame (R15, R16). -/
def State.recordOutcome (s : State) (k : SlotNo) (o : Outcome) : State :=
  match o with
  | .clean => s.markActive k
  | .collided => (s.markActive k).countCollided

end Sys2Proof.Machine
end

