-- ==== Sys2Proof/Machine/SlotMap.lean ====
section
/-! DEFINITION. The slot map's own rules (chapter 4): observed transitions, the occupancy merge, clearing and filling,
and the address clash that a beacon or a slot frame raises (R51, R70). -/

namespace Sys2Proof.Machine

/-- The claim engine or the stream unit owns the entry, and the map's own rules leave it as it is (R73). -/
def MapEntry.owned : MapEntry → Bool
  | .probe .. | .mine .. => true
  | .unknown _ | .free | .held .. | .cooling _ => false

/-- A SILENT occurrence (R62, R63). -/
def MapEntry.observeSilent : MapEntry → MapEntry
  | .unknown n => if n + 1 < Config.lease then .unknown (n + 1) else .free
  | .held holder n => if n + 1 < Config.lease then .held holder (n + 1) else .free
  | .cooling n => if 1 < n then .cooling (n - 1) else .free
  | .free => .free
  | .probe l i => .probe l i
  | .mine i c f => .mine i c f

/-- A CLEAN slot frame (R64, R65). -/
def MapEntry.observeFrame (f : SlotFrame) : MapEntry :=
  match f.mark with
  | .claim | .data | .fill => .held (some (f.owner, f.tag)) 0
  | .final => .cooling Config.cool

/-- A DAMAGED occurrence (R67). -/
def MapEntry.observeDamage : MapEntry → MapEntry
  | .held holder _ => .held holder 0
  | .unknown _ | .free | .cooling _ => .held none 0
  | .probe l i => .probe l i
  | .mine i c f => .mine i c f

/-- The observed transition of an entry for the class of its slot's occurrence (R61 to R67). -/
def MapEntry.observe (c : ObsClass SlotFrame) (e : MapEntry) : MapEntry :=
  if e.owned then e
  else
    match c with
    | .silent => e.observeSilent
    | .clean f => MapEntry.observeFrame f
    | .collided => .held none 0
    | .damaged => e.observeDamage

/-- What a set summary flag does to its entry (R71). -/
def MapEntry.reported : MapEntry → MapEntry
  | .unknown _ | .free => .held none 0
  | .held holder n => .held holder n
  | .cooling n => .cooling n
  | .probe l i => .probe l i
  | .mine i c f => .mine i c f

/-- The entry is MINE for stream `i`. -/
def MapEntry.isMineOf (i : StreamNo) : MapEntry → Bool
  | .mine j _ _ => j == i
  | .unknown _ | .free | .held .. | .cooling _ | .probe .. => false

/-- The entry is MINE. -/
def MapEntry.isMine : MapEntry → Bool
  | .mine .. => true
  | .unknown _ | .free | .held .. | .cooling _ | .probe .. => false

/-- The slot numbers in ascending order. -/
def allSlots : List SlotNo := List.finRange 48

/-- The FREE slots, in ascending order (R60). -/
def State.freeSlots (s : State) : List SlotNo := allSlots.filter fun k => s.map[k] == .free

/-- Some MINE entry remains in the map (R37). -/
def State.anyMine (s : State) : Bool := allSlots.any fun k => s.map[k].isMine

/-- Some MINE entry of stream `i` remains (R116). -/
def State.anyMineOf (s : State) (i : StreamNo) : Bool := allSlots.any fun k => s.map[k].isMineOf i

/-- The clear of the map (R78). -/
def State.clearMap (s : State) : State := s.mapEntries fun _ _ => .unknown 0

/-- The fill of the map at founding (R79); PROBE and MINE entries would stay (R73). -/
def State.fillMap (s : State) : State := s.mapEntries fun _ e => if e.owned then e else .free

/-- The occupancy merge (R71). -/
def State.mergeSummary (s : State) (summary : SlotFlags) : State :=
  s.mapEntries fun k e => if summary[k] then e.reported else e

/-- An address clash: posted once per session (R51, R70). -/
def State.raiseClash (s : State) : State :=
  if s.sessionFlag then s else { s.post .addressClash with sessionFlag := true }

/-- The check of a received sender or owner against the configured address (R51, R70). -/
def State.checkAddress (s : State) (a : Address) : State := if a = s.config.address then s.raiseClash else s

/-- The map takes the class of occurrence `k` (R61), with the address check of a CLEAN frame (R70). -/
def State.observeSlot (s : State) (k : SlotNo) (c : ObsClass SlotFrame) : State :=
  if s.map[k].owned then s
  else
    match c with
    | .clean f => (s.checkAddress f.owner).setEntry k (s.map[k].observe c)
    | .silent => s.setEntry k (s.map[k].observe c)
    | .collided => s.setEntry k (s.map[k].observe c)
    | .damaged => s.setEntry k (s.map[k].observe c)

end Sys2Proof.Machine
end

