-- ==== Sys2Proof/Machine/Claims.lean ====
section
/-! DEFINITION. The claim engine (chapter 5): the queue and the lanes, the three steps of a slot-phase start, the
outcomes of a probe and its abandonment. -/

namespace Sys2Proof.Machine

/-- The stream numbers in ascending order. -/
def allStreams : List StreamNo := List.finRange 8

/-- The claim fields at their cleared values (R84). -/
def Stream.clearClaim (r : Stream) : Stream :=
  { r with attempts := 0, backoff := 0, deferral := 0, shortPosted := false }

/-- Lane `l` carries stream `i`. -/
def State.laneCarries (s : State) (l : LaneNo) (i : StreamNo) : Bool :=
  match s.lanes[l] with
  | some r => r.stream == i
  | none => false

/-- The probing count of a stream: 1 while a lane carries it (R84). -/
def State.probing (s : State) (i : StreamNo) : Nat := if s.laneCarries 0 i || s.laneCarries 1 i then 1 else 0

/-- The stream fails with this reason (R90, R95) and STREAM_FAILED is posted (R96). -/
def State.failStream (s : State) (i : StreamNo) (why : Reason) : State :=
  (s.modStream i fun r => { r.clearClaim with state := .failed, failure := some why }).post (.streamFailed i why)

/-- The stream is short of slots: STREAM_SHORT under the short-posted flag (R96). -/
def State.shortStream (s : State) (i : StreamNo) (why : Reason) : State :=
  if s.streams[i].shortPosted then s
  else (s.modStream i fun r => { r with shortPosted := true }).post (.streamShort i why)

/-! ## The slot-phase start (R85) -/

/-- Step 1: the backoff of each CLAIMING stream above 0 falls by one (R86). -/
def State.countBackoffs (s : State) : State :=
  s.mapStreams fun _ r => if r.state = .claiming then { r with backoff := r.backoff - 1 } else r

/-- The join condition (R87). -/
def State.mayJoin (s : State) (i : StreamNo) : Bool :=
  s.streams[i].state == .claiming && s.streams[i].backoff == 0 && !s.claimQueue.contains i && s.probing i == 0
    && decide (s.streams[i].held.length + s.probing i < s.streams[i].wanted)

/-- Step 2: streams join the tail of the queue in ascending number (R87). -/
def State.joinQueue (s : State) : State := { s with claimQueue := s.claimQueue ++ allStreams.filter s.mayJoin }

/-- A grant: lane `l` takes stream `i`, the head of the queue, for slot `k` (R88). -/
def State.grant (s : State) (l : LaneNo) (i : StreamNo) (k : SlotNo) : State :=
  (({ s with claimQueue := s.claimQueue.tail }.setLane l (some { stream := i, slot := k, cleanCount := 0 })).setEntry
    k (.probe l i)).modStream i fun r => { r with deferral := 0 }

/-- One lane's turn at step 3, when the map held a FREE entry (R88). -/
def State.serveLane (s : State) (l : LaneNo) : State :=
  match s.lanes[l], s.claimQueue with
  | none, i :: _ =>
    match s.freeSlots[s.drawn s.freeSlots.length]? with
    | some k => s.drawUsed.grant l i k
    | none => s
  | none, [] => s
  | some _, _ => s

/-- Every queued stream's deferral rises by one (R89). -/
def State.countDeferrals (s : State) : State :=
  s.mapStreams fun i r => if s.claimQueue.contains i then { r with deferral := r.deferral + 1 } else r

/-- The deferral limit for one queued stream (R90). -/
def State.limitDeferral (s : State) (i : StreamNo) : State :=
  if s.streams[i].deferral < Config.deferLimit then s
  else if s.streams[i].held = [] then
    { s with claimQueue := s.claimQueue.filter (· ≠ i) }.failStream i .noSlot
  else (s.modStream i fun r => { r with deferral := 0 }).shortStream i .noSlot

/-- The deferral limit for every queued stream, from the head toward the tail (R90). -/
def State.limitDeferrals (s : State) : State := s.claimQueue.foldl State.limitDeferral s

/-- Step 3: grants, or deferrals when the map has no FREE entry, and then the deferral limit (R88 to R90). -/
def State.serveLanes (s : State) : State :=
  (if s.freeSlots = [] then s.countDeferrals else (s.serveLane 0).serveLane 1).limitDeferrals

/-- The claim engine at a slot-phase start in ACTIVE (R85). -/
def State.serveClaims (s : State) : State := s.countBackoffs.joinQueue.serveLanes

/-! ## Probing (R91 to R97) -/

/-- The CLAIM frame of a probe for stream `i` (R91). -/
def State.claimFrame (s : State) (i : StreamNo) : Frame :=
  .slot { mark := .claim, owner := s.config.address, tag := s.streams[i].tag, sequence := s.streams[i].sequence,
          payload := Vector.replicate 24 0 }

/-- The lane that carries slot `k` (R92). -/
def State.laneOfSlot (s : State) (k : SlotNo) : Option (LaneNo × Lane) :=
  match s.lanes[0] with
  | some r => if r.slot = k then some (0, r) else
      match s.lanes[1] with
      | some r' => if r'.slot = k then some (1, r') else none
      | none => none
  | none =>
      match s.lanes[1] with
      | some r' => if r'.slot = k then some (1, r') else none
      | none => none

/-- The probe is won (R93): the entry becomes MINE, the slot joins the held list and the lane is idle. -/
def State.winSlot (s : State) (l : LaneNo) (r : Lane) : State :=
  ((s.setLane l none).setEntry r.slot (.mine r.stream 0 false)).modStream r.stream fun q =>
    { q with held := q.held ++ [r.slot], attempts := 0 }

/-- A stream whose held count has come to its wanted value becomes LIVE (R93). -/
def State.goLive (s : State) (i : StreamNo) (k : SlotNo) : State :=
  if s.streams[i].held.length = s.streams[i].wanted then
    (s.modStream i fun q => { q with state := .live, shortPosted := false }).post (.streamLive i k)
  else s

/-- The range of the backoff drawn when the attempts have risen to `attempts` (R94). -/
def backoffRange (attempts : Nat) : Nat := 2 ^ min attempts 5

/-- The attempt limit (R95). -/
def State.limitAttempts (s : State) (i : StreamNo) : State :=
  if s.streams[i].attempts < Config.attemptLimit then s
  else if s.streams[i].held = [] then s.failStream i .contention
  else (s.modStream i fun q => { q with attempts := 0 }).shortStream i .contention

/-- A collided probe (R94): the slot is left to its lease, the attempts rise and a backoff is drawn. -/
def State.loseProbe (s : State) (l : LaneNo) (r : Lane) : State :=
  (((s.setLane l none).setEntry r.slot (.held none 0)).modStream r.stream fun q =>
    { q with attempts := q.attempts + 1, backoff := s.drawn (backoffRange (q.attempts + 1)) }).drawUsed

/-- The claim engine takes the outcome of the CLAIM sent in slot `k` (R92 to R97). -/
def State.claimOutcome (s : State) (k : SlotNo) (o : Outcome) : State :=
  match s.laneOfSlot k with
  | none => s
  | some (l, r) =>
    match o with
    | .clean =>
      if r.cleanCount + 1 < Config.probeCycles then s.setLane l (some { r with cleanCount := r.cleanCount + 1 })
      else (s.winSlot l r).goLive r.stream r.slot
    | .collided => (s.loseProbe l r).limitAttempts r.stream

/-! ## Probes that end early (R98 to R100) -/

/-- Lane `l` gives up its probe: the entry becomes HELD(absent) and the lane is idle (R98). -/
def State.abandonLane (s : State) (l : LaneNo) : State :=
  match s.lanes[l] with
  | some r => (s.setLane l none).setEntry r.slot (.held none 0)
  | none => s

/-- Lane `l` gives up its probe if it carries stream `i`. -/
def State.abandonLaneOf (s : State) (i : StreamNo) (l : LaneNo) : State :=
  if s.laneCarries l i then s.abandonLane l else s

/-- The claim engine's part of a close of stream `i` (R98). -/
def State.leaveClaims (s : State) (i : StreamNo) : State :=
  let t := (s.abandonLaneOf i 0).abandonLaneOf i 1
  { t with claimQueue := t.claimQueue.filter (· ≠ i) }.modStream i Stream.clearClaim

/-- The queue is emptied and both lanes are idle (R39, R83, R100). -/
def State.emptyClaims (s : State) : State := { s with claimQueue := [], lanes := Vector.replicate 2 none }

end Sys2Proof.Machine
end

