-- ==== Sys2Proof/Machine/Streams.lean ====
section
/-! DEFINITION. The stream unit (chapter 6): the frames sent in the station's own slots and their outcomes, slot
release, closing, and the in-transit block. -/

namespace Sys2Proof.Machine

/-- The stream is in use. -/
def StreamState.inUse : StreamState → Bool
  | .idle => false
  | .claiming | .live | .closing | .failed => true

/-- The in-transit block belongs to stream `i` (R106). -/
def State.inTransitOf (s : State) (i : StreamNo) : Bool :=
  match s.inTransit with
  | some b => b.stream == i
  | none => false

/-- Queued blocks plus the in-transit block of stream `i` (R106). -/
def State.blocksOf (s : State) (i : StreamNo) : Nat :=
  s.streams[i].queue.length + if s.inTransitOf i then 1 else 0

/-! ## Sending (R110) -/

/-- A frame of stream `i` in one of its own slots (R110). -/
def State.streamFrame (s : State) (i : StreamNo) (mark : Mark) (payload : Payload) : Frame :=
  .slot { mark := mark, owner := s.config.address, tag := s.streams[i].tag, sequence := s.streams[i].sequence,
          payload := payload }

/-- 24 bytes of zero (R4). -/
def zeroPayload : Payload := Vector.replicate 24 0

/-- FINAL is handed over (R110, R118). -/
def State.sendFinal (s : State) (i : StreamNo) : State := s.handOver (s.streamFrame i .final zeroPayload)

/-- The head block of stream `i` leaves its queue and becomes the in-transit block, and DATA is handed over
(R106, R110). -/
def State.sendData (s : State) (i : StreamNo) (k : SlotNo) (block : Block) : State :=
  { (s.handOver (s.streamFrame i .data block.data)).modStream i (fun r => { r with queue := r.queue.tail }) with
    inTransit := some { stream := i, slot := k, block := block, disposal := .returnToQueue } }

/-- FILL is handed over and the underrun counted (R110). -/
def State.sendFill (s : State) (i : StreamNo) : State :=
  (s.handOver (s.streamFrame i .fill zeroPayload)).modStream i fun r => { r with underruns := bump r.underruns }

/-- The stream unit at the begin of an occurrence whose entry is MINE (R110). -/
def State.sendOwned (s : State) (k : SlotNo) (i : StreamNo) (finalPending : Bool) : State :=
  if finalPending then s.sendFinal i
  else
    match s.streams[i].queue with
    | block :: _ => s.sendData i k block
    | [] => s.sendFill i

/-! ## Slots given up (R115, R118) -/

/-- A closing stream whose held list is empty becomes IDLE, and STREAM_CLOSED is posted (R115, R116, R118). -/
def State.finishClosing (s : State) (i : StreamNo) : State :=
  if s.streams[i].state = .closing ∧ s.streams[i].held = [] then
    (s.modStream i fun r => { r with state := .idle }).post (.streamClosed i)
  else s

/-- The state of a stream that has lost a slot to conflict (R115). -/
def StreamState.afterRelease : StreamState → StreamState
  | .live => .claiming
  | .idle => .idle
  | .claiming => .claiming
  | .closing => .closing
  | .failed => .failed

/-- The release of slot `k` of stream `i` (R115). -/
def State.releaseSlot (s : State) (k : SlotNo) (i : StreamNo) : State :=
  (((s.setEntry k (.held none 0)).modStream i fun r =>
    { r with held := r.held.erase k, slotsLost := bump r.slotsLost, state := r.state.afterRelease }).post
      (.streamLost i k)).finishClosing i

/-- A collided occurrence of an owned slot (R113, R114). -/
def State.raiseConflict (s : State) (k : SlotNo) : State :=
  match s.map[k] with
  | .mine i c f => if c + 1 < Config.conflictLimit then s.setEntry k (.mine i (c + 1) f) else s.releaseSlot k i
  | .unknown _ | .free | .held .. | .cooling _ | .probe .. => s

/-- A clean occurrence of an owned slot (R112, R114). -/
def State.clearConflict (s : State) (k : SlotNo) : State :=
  match s.map[k] with
  | .mine i _ f => s.setEntry k (.mine i 0 f)
  | .unknown _ | .free | .held .. | .cooling _ | .probe .. => s

/-! ## Outcomes (R112 to R114, R118) -/

/-- The in-transit block, not sent clean, is settled by its disposal: it rejoins the head of its queue or its buffer
is free (R113; R38 at a merge). -/
def State.settleTransit (s : State) : State :=
  match s.inTransit with
  | none => s
  | some b =>
    match b.disposal with
    | .returnToQueue => { s.modStream b.stream (fun r => { r with queue := b.block :: r.queue }) with inTransit := none }
    | .freeBuffer => { s.release [b.block.buffer] with inTransit := none }

/-- The in-transit block has been sent clean (R112). -/
def State.deliverTransit (s : State) : State :=
  match s.inTransit with
  | none => s
  | some b =>
    { (s.release [b.block.buffer]).modStream b.stream (fun r =>
        { r with sequence := r.sequence + 1, blocksSent := bump r.blocksSent }) with inTransit := none }

/-- The outcome of a DATA frame in slot `k` (R112, R113). -/
def State.dataOutcome (s : State) (k : SlotNo) (o : Outcome) : State :=
  match o with
  | .clean => s.deliverTransit.clearConflict k
  | .collided => s.settleTransit.raiseConflict k

/-- The outcome of a FILL frame in slot `k` (R114). -/
def State.fillOutcome (s : State) (k : SlotNo) (o : Outcome) : State :=
  match o with
  | .clean => s.clearConflict k
  | .collided => s.raiseConflict k

/-- After a FINAL in slot `k`, whatever its outcome (R118). -/
def State.finalSent (s : State) (k : SlotNo) : State :=
  match s.map[k] with
  | .mine i _ _ =>
    ((s.setEntry k (.cooling Config.cool)).modStream i fun r => { r with held := r.held.erase k }).finishClosing i
  | .unknown _ | .free | .held .. | .cooling _ | .probe .. => s

/-! ## Closing (R116, R117) -/

/-- Every queued buffer of stream `i` returns to the pool (R116, R148). -/
def State.freeQueue (s : State) (i : StreamNo) : State :=
  (s.release s.streams[i].buffers).modStream i fun r => { r with queue := [] }

/-- The in-transit block of stream `i` is to be freed at its slot end (R116). -/
def State.condemnTransit (s : State) (i : StreamNo) : State :=
  match s.inTransit with
  | some b => if b.stream = i then { s with inTransit := some { b with disposal := .freeBuffer } } else s
  | none => s

/-- Every MINE entry of stream `i` becomes final-pending (R77). -/
def State.markFinal (s : State) (i : StreamNo) : State :=
  s.mapEntries fun _ e =>
    match e with
    | .mine j c f => if j = i then .mine j c true else .mine j c f
    | .unknown n => .unknown n
    | .free => .free
    | .held h n => .held h n
    | .cooling n => .cooling n
    | .probe l j => .probe l j

/-- The first four steps of the close of a CLAIMING or LIVE stream (R116). -/
def State.beginClose (s : State) (i : StreamNo) : State :=
  ((((s.freeQueue i).condemnTransit i).leaveClaims i).modStream i fun r => { r with state := .closing }).markFinal i

/-- The close of a CLAIMING or LIVE stream (R116): its fifth step ends it at once where no MINE entry of it remains,
or where the station is neither ACTIVE nor LEAVING. -/
def State.closeStream (s : State) (i : StreamNo) : State :=
  let t := s.beginClose i
  if !t.anyMineOf i || !(t.station == .active || t.station == .leaving) then
    (t.modStream i fun r => { r with state := .idle, held := [] }).post (.streamClosed i)
  else t

/-- The close of a FAILED stream (R117). It holds no slot, so it has no block in transit; any would be freed at its
slot end (R147). -/
def State.closeFailed (s : State) (i : StreamNo) : State :=
  ((s.freeQueue i).condemnTransit i).modStream i fun r => { r with state := .idle, failure := none }

/-- What a STOP does to stream `i` (R34, R35): a CLAIMING or LIVE stream closes, a FAILED one is ended, an IDLE or
CLOSING one is left as it is. -/
def State.stopStream (s : State) (i : StreamNo) : State :=
  match s.streams[i].state with
  | .claiming | .live => s.closeStream i
  | .failed => s.closeFailed i
  | .idle | .closing => s

/-- A STOP reaches every stream in ascending number (R18, R34, R35). -/
def State.stopStreams (s : State) : State := allStreams.foldl State.stopStream s

/-! ## The timeline drop's part (R38) -/

/-- What a timeline drop does to a stream record (R38). -/
def Stream.drop (r : Stream) : Stream :=
  match r.state with
  | .claiming | .live => { r.clearClaim with state := .claiming, held := [] }
  | .closing => { r with state := .idle, held := [] }
  | .failed | .idle => r

/-- The streams that a timeline drop closes, in ascending number (R38). -/
def State.closingStreams (s : State) : List StreamNo := allStreams.filter fun i => s.streams[i].state == .closing

end Sys2Proof.Machine
end

