-- ==== Sys2Proof/Machine/Subscriptions.lean ====
section
/-! DEFINITION. The receive unit (chapter 7): matching, storing and dropping, the end and staleness of a remote stream,
and the commit of a POP. -/

namespace Sys2Proof.Machine

/-- The entry numbers in ascending order. -/
def allEntries : List EntryNo := List.finRange 16

/-- The entry is used (R126). -/
def SubState.used : SubState → Bool
  | .idle => false
  | .waiting | .active | .stale | .ended => true

/-- The used entry that follows this source and tag (R129). -/
def State.matching (s : State) (source : Address) (tag : Byte) : Option EntryNo :=
  allEntries.find? fun e => s.subs[e].state.used && s.subs[e].source == source && s.subs[e].tag == tag

/-- The gap of a DATA block (R131). -/
def Subscription.gap (r : Subscription) (sequence : Byte) : Byte :=
  match r.expected with
  | some x => sequence - x
  | none => 0

/-- A DATA block is stored (R132): its record joins the tail of the queue in the buffer `b` of the pool. -/
def State.storeBlock (s : State) (e : EntryNo) (k : SlotNo) (cycle : Half) (f : SlotFrame) (b : BufferNo) : State :=
  (s.allocate b).modSub e fun r =>
    { r with
      queue := r.queue ++ [{ buffer := b, entry := e, source := f.owner, tag := f.tag, cycle := cycle, slot := k,
                             sequence := f.sequence, gap := r.gap f.sequence, payload := f.payload }]
      expected := some (f.sequence + 1)
      stored := bump r.stored }

/-- A DATA block is dropped (R133). -/
def State.dropBlock (s : State) (e : EntryNo) : State :=
  (s.modSub e fun r => { r with dropped := bump r.dropped }).countDrop

/-- Store, where the queue has room and the pool a buffer; else drop (R131, R146). -/
def State.storeOrDrop (s : State) (e : EntryNo) (k : SlotNo) (cycle : Half) (f : SlotFrame) : State :=
  if s.subs[e].queue.length < Config.rxBlocks then
    match s.givenBuffer with
    | some b => s.storeBlock e k cycle f b
    | none => s.dropBlock e
  else s.dropBlock e

/-- The state change of a DATA hit (R134), with its presence (R131). -/
def State.activateSub (s : State) (e : EntryNo) (k : SlotNo) : State :=
  if s.subs[e].state = .active then s.modSub e fun r => { r with presence := true }
  else
    (s.modSub e fun r => { r with state := .active, quietCount := 0, presence := true }).post (.subActive e k)

/-- A hit by a DATA frame (R131 to R134). -/
def State.hitData (s : State) (e : EntryNo) (k : SlotNo) (cycle : Half) (f : SlotFrame) : State :=
  (s.storeOrDrop e k cycle f).activateSub e k

/-- A hit by a CLAIM or FILL frame (R130). -/
def State.hitPresence (s : State) (e : EntryNo) : State := s.modSub e fun r => { r with presence := true }

/-- A hit by a FINAL frame (R135). -/
def State.hitFinal (s : State) (e : EntryNo) (k : SlotNo) : State :=
  if s.subs[e].state = .ended then s
  else
    (s.modSub e fun r => { r with state := .ended, expected := none, quietCount := 0 }).post (.subEnded e k)

/-- The receive unit takes a CLEAN slot frame (R129). -/
def State.receive (s : State) (k : SlotNo) (cycle : Half) (f : SlotFrame) : State :=
  match s.matching f.owner f.tag with
  | none => s
  | some e =>
    match f.mark with
    | .claim => s.hitPresence e
    | .fill => s.hitPresence e
    | .data => s.hitData e k cycle f
    | .final => s.hitFinal e k

/-- Quiet counting of one entry at a cycle end, presence cleared (R136). -/
def State.countQuiet (s : State) (e : EntryNo) : State :=
  if s.subs[e].state = .active ∧ s.subs[e].presence = false then
    if s.subs[e].quietCount + 1 < Config.lease then
      s.modSub e fun r => { r with quietCount := r.quietCount + 1 }
    else (s.modSub e fun r => { r with state := .stale, quietCount := 0 }).post (.subStale e)
  else s.modSub e fun r => { r with quietCount := 0, presence := false }

/-- The receive unit at a cycle end, in ascending entry number (R136). -/
def State.countQuiets (s : State) : State := allEntries.foldl State.countQuiet s

/-- A used entry waits again after a timeline drop or an arrival in READY (R38, R39, R137). -/
def Subscription.rewait (r : Subscription) : Subscription :=
  if r.state.used then { r with state := .waiting, expected := none, quietCount := 0, presence := false } else r

/-- The commit of a POP (R139): the head record leaves and its buffer is free. -/
def State.popHead (s : State) (e : EntryNo) : State :=
  match s.subs[e].queue with
  | [] => s
  | b :: rest => (s.release [b.buffer]).modSub e fun r => { r with queue := rest }

/-- The commit of a READ_EVENT (R157). -/
def State.dropEvent (s : State) : State := { s with events := s.events.tail }

end Sys2Proof.Machine
end

