-- ==== Sys2Proof/Machine/Station.lean ====
section
/-! DEFINITION. The timeline unit and the beacon unit (chapters 2 and 3): the listen timer, founding, adoption and merge,
holdover and settling, leaving, and what a station transition does to every block. -/

namespace Sys2Proof.Machine

/-! ## The listen timer (R25) -/

/-- The timer is started or restarted: it draws its wait, and is held at once where carrier is present (R25). -/
def State.startTimer (s : State) : State :=
  let wait := Config.foundWaitBase + Config.foundWaitUnit * s.drawn 8
  { s.drawUsed with listenTimer := if s.carrier.isSome then .held wait else .counting wait }

/-- Carrier holds the timer (R25). -/
def ListenTimer.hold : ListenTimer → ListenTimer
  | .counting n => .held n
  | .held n => .held n
  | .stopped => .stopped

/-- One microsecond of bus quiet (R25). -/
def ListenTimer.tick : ListenTimer → ListenTimer
  | .counting n => .counting (n - 1)
  | .held n => .held n
  | .stopped => .stopped

/-- The timer counts down, so it can reach zero (R26). -/
def ListenTimer.isCounting : ListenTimer → Bool
  | .counting _ => true
  | .held _ | .stopped => false

/-- A microsecond passes with no command waiting (log entry 2). -/
def State.idle (s : State) : State := { s with listenTimer := s.listenTimer.tick }

/-! ## Changes of station state (R18) -/

/-- The station enters `target` with STATION_STATE posted (R18). -/
def State.enter (s : State) (target : StationState) (cause : Cause) : State :=
  { s with station := target }.post (.stationState target cause)

/-- The timeline record off a timeline (R19), with the beacon unit's items as R42 gives them there. -/
def State.leaveTimeline (s : State) : State :=
  { s with timeline := none, holdover := 0, settle := 0, drawnPosition := none, beaconHeard := false, tx := none,
           reports := Reports.empty }

/-- What an arrival in READY does, but for the change of station state itself (R39). -/
def State.arrival (s : State) : State :=
  { (s.leaveTimeline.clearMap.emptyClaims.mapSubs Subscription.rewait) with
    listenTimer := .stopped, sessionFlag := false }

/-- Arrival in READY with this cause (R39). -/
def State.arriveReady (s : State) (cause : Cause) : State := s.arrival.enter .ready cause

/-- The timeline drop (R38): a slot frame handed over and not yet started is discarded and its block settled, every
probe and owned slot is gone, the map is cleared, and streams and subscriptions are reset. -/
def State.timelineDrop (s : State) : State :=
  { (s.settleTransit.emptyClaims.clearMap.mapStreams fun _ r => r.drop).mapSubs Subscription.rewait with tx := none }

/-- In LEAVING with no MINE entry left, the station arrives in READY (R37). -/
def State.checkLeft (s : State) : State :=
  if s.station = .leaving ∧ s.anyMine = false then s.arriveReady .left else s

/-! ## Joining a timeline (R28, R33, R53, R55) -/

/-- What follows the frame of a beacon heard at position `p` in its cycle (R3). -/
def BeaconFrame.nextBoundary (b : BeaconFrame) : Boundary := Boundary.afterPosition b.position

/-- The record, boundaries, observer and beacon unit of a station that joins the timeline of a beacon (R19, R3, R15,
R42). -/
def State.joinTimeline (s : State) (b : BeaconFrame) (firstBit : Time) : State :=
  { s.clearActivity with
    timeline := some { founder := b.founder, cycle := b.cycle, startedAt := b.placedStart firstBit,
                       nextBoundary := b.nextBoundary }
    holdover := 0
    settle := Config.settleCycles
    listenTimer := .stopped
    drawnPosition := none
    beaconHeard := true
    reports := Reports.empty }

/-- Adoption in LISTEN (R28, R53), the receiver started afresh as the beacon ends (R17). -/
def State.adopt (s : State) (b : BeaconFrame) (firstBit lastBit : Time) : State :=
  (((((s.restartReceiver lastBit).joinTimeline b firstBit).enter .settle .adopt).countCleanBeacon).mergeSummary
    b.occupancy).checkAddress b.sender

/-- A merge in SETTLE or ACTIVE (R33, R55). -/
def State.mergeOnto (s : State) (b : BeaconFrame) (firstBit : Time) : State :=
  ((((s.timelineDrop.joinTimeline b firstBit).enter .settle .merge).postAll
      (s.closingStreams.map .streamClosed)).countCleanBeacon.mergeSummary b.occupancy).checkAddress b.sender

/-- A merge in LEAVING (R33, R55): the sender is checked against the session flag as it stood before the arrival. -/
def State.mergeLeaving (s : State) (b : BeaconFrame) : State :=
  let t := (s.timelineDrop.arriveReady .merge).postAll (s.closingStreams.map .streamClosed)
  if b.sender = s.config.address ∧ s.sessionFlag = false then t.post .addressClash else t

/-- A clean beacon handed over at its frame report on a timeline (R54). -/
def State.sortBeacon (s : State) (t : Timeline) (b : BeaconFrame) (firstBit : Time) : State :=
  if b.founder = t.founder then s
  else if b.founder < t.founder then
    if s.station = .leaving then s.mergeLeaving b else s.mergeOnto b firstBit
  else s.countForeign.checkAddress b.sender

/-! ## Beacons of the station's own timeline (R43 to R48) -/

/-- A clean beacon of the station's own timeline is heard in the cycle (R45, R47). -/
def State.beaconWasHeard (s : State) : State := { s.countCleanBeacon with beaconHeard := true, holdover := 0 }

/-- The cycle number of the timeline record takes the beacon's value (R48). -/
def State.compareCycle (s : State) (b : BeaconFrame) : State :=
  if s.cycleNumber = some b.cycle then s
  else { s.countSlip with timeline := s.timeline.map fun t => { t with cycle := b.cycle } }

/-- The cycle start is trimmed to the beacon (R3). -/
def State.trim (s : State) (b : BeaconFrame) (firstBit : Time) : State :=
  { s with timeline := s.timeline.map fun t => { t with startedAt := b.placedStart firstBit } }

/-- A clean beacon of the station's own timeline is taken (R47). -/
def State.takeOwnBeacon (s : State) (b : BeaconFrame) (firstBit : Time) : State :=
  (((s.beaconWasHeard.compareCycle b).trim b firstBit).mergeSummary b.occupancy).checkAddress b.sender

/-- The beacon unit takes the outcome of the station's own beacon (R45). -/
def State.beaconOutcome (s : State) (o : Outcome) : State :=
  match o with
  | .clean => s.beaconWasHeard
  | .collided => s.countClash

/-- The beacon unit takes the class of a position in which the station did not send (R46). -/
def State.takePosition (s : State) (c : ObsClass HeardBeacon) : State :=
  match c with
  | .silent => s
  | .clean (.own b firstBit) => s.takeOwnBeacon b firstBit
  | .clean (.foreign _) => s
  | .collided => s.countClash
  | .damaged => s

/-- The beacon unit at a cycle start (R43): the flag is cleared, and in ACTIVE a beacon-eligible station draws its
position. -/
def State.drawPosition (s : State) : State :=
  if s.station = .active ∧ s.config.beaconEligible = true then
    { s.drawUsed with beaconHeard := false, drawnPosition := some (Fin.ofNat 8 (s.drawn 8)) }
  else { s with beaconHeard := false, drawnPosition := none }

/-- The beacon frame of this station for position `p` (R44). -/
def State.beaconFrame (s : State) (t : Timeline) (p : Position) : Frame :=
  .beacon { sender := s.config.address, position := p, founder := t.founder, cycle := t.cycle,
            occupancy := s.activityPrevious }

/-- The opening of the drawn position (R44). -/
def State.openPosition (s : State) (t : Timeline) (p : Position) : State :=
  if s.drawnPosition = some p then
    if s.beaconHeard then { s with drawnPosition := none }
    else { s.handOver (s.beaconFrame t p) with drawnPosition := none }
  else s

/-! ## Founding (R27) -/

/-- The timeline record at founding, the cycle start of cycle 0 already raised (R19, R27). -/
def State.foundedTimeline (s : State) (time : Time) : Timeline :=
  { founder := s.config.address, cycle := 0, startedAt := time, nextBoundary := .positionOpen 0 }

/-- Founding at the moment of expiry (R27), with the cycle start of cycle 0 (R43). -/
def State.found (s : State) (time : Time) : State :=
  (({ s.clearActivity with
      timeline := some (s.foundedTimeline time)
      holdover := 0
      settle := 0
      listenTimer := .stopped
      reports := Reports.empty }).fillMap.enter .active .found).drawPosition

/-! ## Cycle end (R29 to R32) -/

/-- The receiver abandons a frame under way at the cycle end (R17). -/
def State.abandonFrame (s : State) : State :=
  match s.timeline with
  | none => s
  | some t => s.restartReceiver t.ends

/-- Loss of synchronization in SETTLE or ACTIVE (R31). -/
def State.loseSync (s : State) : State :=
  ((((s.abandonFrame).timelineDrop.leaveTimeline).startTimer).enter .listen .holdover).postAll
    (s.closingStreams.map .streamClosed)

/-- Loss of synchronization in LEAVING (R32). -/
def State.loseSyncLeaving (s : State) : State :=
  (s.timelineDrop.arriveReady .holdover).postAll (s.closingStreams.map .streamClosed)

/-- The settle count of a station still in SETTLE (R29). -/
def State.countSettle (s : State) : State :=
  if s.station = .settle then
    if 1 < s.settle then { s with settle := s.settle - 1 } else { s with settle := 0 }.enter .active .settled
  else s

/-- The holdover count and then the settle count (R29, R30). -/
def State.countHoldover (s : State) : State :=
  if s.beaconHeard then s.countSettle
  else if s.holdover + 1 < Config.holdoverLimit then { s with holdover := s.holdover + 1 }.countSettle
  else if s.station = .leaving then s.loseSyncLeaving
  else s.loseSync

/-- The receive unit's cycle end, which counts nothing once the station has left its timeline (R136, R137). -/
def State.receiveCycleEnd (s : State) : State := if s.station.onTimeline then s.countQuiets else s

/-! ## STOP (R34 to R36) -/

/-- STOP in LISTEN or SETTLE (R34): STATION_STATE first, then the STREAM_CLOSED events. The streams are closed in
READY, off the timeline, where each ends at once. -/
def State.stopEarly (s : State) : State := (s.arriveReady .stop).stopStreams

/-- STOP in ACTIVE (R35). Where no MINE entry remains the station goes on to READY at once, or at the close of a
division that carries its own beacon or CLAIM (R37). -/
def State.stopActive (s : State) : State :=
  let t := { (s.enter .leaving .stop).stopStreams with drawnPosition := none }
  if t.carriesBeaconOrClaim then t else t.checkLeft

end Sys2Proof.Machine
end

