-- ==== Sys2Proof/Machine/CycleEvents.lean ====
section
/-! DEFINITION. The meanings of the cycle events (rows CYCLE_START to CYCLE_END). The timeline unit raises each event
at its own boundary of R2 and at no other moment, so a cycle event that is not the next one due changes nothing
(log entry 9). -/

namespace Sys2Proof.Machine

/-- The effect of a cycle event: nothing unless the timeline unit raises it now (R2), or while the reset input is
held. -/
def State.atEvent (s : State) (b : Boundary) (f : Timeline → State → State) : State :=
  s.unlessHeld fun s =>
    match s.atBoundary b with
    | none => s
    | some t => f t s

/-- The cycle number advances and the boundaries move on by one cycle (R2, R3). -/
def Timeline.nextCycle (t : Timeline) : Timeline :=
  { t with cycle := t.cycle + 1, startedAt := t.startedAt + Config.cycleTime, nextBoundary := .positionOpen 0 }

/-- Cycle start (R2, R15, R43). -/
def execCycleStart (s : State) : Host.Outcome State Fault Refusal :=
  .next
    (s.atEvent .cycleStart fun t s =>
      ({ s with timeline := some t.nextCycle }.rotateActivity).drawPosition)

/-- Beacon position `p` opens (R44). -/
def execBeaconPosition (p : Position) (s : State) : Host.Outcome State Fault Refusal :=
  .next
    (s.atEvent (.positionOpen p) fun t s => (s.openDivision.openPosition t p).nextIs (.positionClose p))

/-- The beacon unit takes a position's close: the outcome of the station's own beacon (R45), or the class (R46). -/
def State.closePosition (s : State) (t : Timeline) (p : Position) : State :=
  match s.tx with
  | some x =>
    let u := (s.closeDivision.beaconOutcome (s.outcome x (t.positionOpens p) (t.positionCloses p))).nextIs
      (Boundary.afterPosition p)
    u.checkLeft
  | none => (s.closeDivision.takePosition (s.positionClass t p)).nextIs (Boundary.afterPosition p)

/-- Beacon position `p` closes (R9). A frame handed over has reached its lead-in by then (R1). -/
def execBeaconPositionClose (p : Position) (s : State) : Host.Outcome State Fault Refusal :=
  .next
    (s.atEvent (.positionClose p) fun t s => if s.awaitsLeadIn then s else s.closePosition t p)

/-- Slot-phase start (R85): only an ACTIVE station's claim engine serves its queue. -/
def execSlotPhaseStart (s : State) : Host.Outcome State Fault Refusal :=
  .next
    (s.atEvent .slotPhaseStart fun _ s =>
      (if s.station = .active then s.serveClaims else s).nextIs (.slotBegin 0))

/-- What is handed over at the begin of slot occurrence `k`: a CLAIM for a PROBE entry in ACTIVE (R91), a frame of the
stream unit for a MINE entry in ACTIVE or LEAVING (R110), nothing otherwise. -/
def State.beginSlot (s : State) (k : SlotNo) : State :=
  match s.map[k] with
  | .probe _ i => if s.station = .active then s.handOver (s.claimFrame i) else s
  | .mine i _ finalPending =>
    if s.station = .active ∨ s.station = .leaving then s.sendOwned k i finalPending else s
  | .unknown _ | .free | .held .. | .cooling _ => s

/-- Slot occurrence `k` begins (R91, R110). -/
def execSlotOccurrenceBegin (k : SlotNo) (s : State) : Host.Outcome State Fault Refusal :=
  .next (s.atEvent (.slotBegin k) fun _ s => (s.openDivision.beginSlot k).nextIs (.slotEnd k))

/-- The lead-in of a division (R6): the line interface starts the frame handed over at its opening. -/
def execLeadIn (s : State) : Host.Outcome State Fault Refusal :=
  .next
    (s.unlessHeld fun s =>
      match s.tx with
      | some { frame := f, stage := .handedOver } => { s with tx := some { frame := f, stage := .sending } }
      | some { frame := _, stage := .sending } => s
      | some { frame := _, stage := .jamming } => s
      | none => s)

/-- The outcome of the station's own frame goes to the unit that sent it (R10). -/
def State.takeOutcome (s : State) (k : SlotNo) (f : Frame) (o : Outcome) : State :=
  match f with
  | .slot { mark := .claim, .. } => s.claimOutcome k o
  | .slot { mark := .data, .. } => s.dataOutcome k o
  | .slot { mark := .fill, .. } => s.fillOutcome k o
  | .slot { mark := .final, .. } => s.finalSent k
  | .beacon _ => s

/-- The receive unit is handed a CLEAN class only (R10, R129). -/
def State.receiveClass (s : State) (k : SlotNo) (cycle : Half) (c : ObsClass SlotFrame) : State :=
  match c with
  | .clean f => s.receive k cycle f
  | .silent => s
  | .collided => s
  | .damaged => s

/-- Slot occurrence `k` has carried the station's own frame (R10, R12): the outcome is taken, and in LEAVING the check
of R37 is made where the division gave up a MINE entry or carried a CLAIM. -/
def State.endOwnSlot (s : State) (t : Timeline) (k : SlotNo) (x : Transmission) : State :=
  let o := s.outcome x (t.slotOpens k) (t.slotCloses k)
  let u := ((s.closeDivision.recordOutcome k o).takeOutcome k x.frame o).nextIs (Boundary.afterSlot k)
  if s.carriesBeaconOrClaim || (s.map[k].isMine && !u.map[k].isMine) then u.checkLeft else u

/-- Slot occurrence `k` has been heard (R8, R10). -/
def State.endHeardSlot (s : State) (t : Timeline) (k : SlotNo) : State :=
  let c := s.slotClass t k
  (((s.closeDivision.recordClass k c).observeSlot k c).receiveClass k t.cycle c).nextIs (Boundary.afterSlot k)

/-- Slot occurrence `k` ends (R10). A frame handed over has reached its lead-in by then (R1). -/
def execSlotOccurrenceEnd (k : SlotNo) (s : State) : Host.Outcome State Fault Refusal :=
  .next
    (s.atEvent (.slotEnd k) fun t s =>
      if s.awaitsLeadIn then s
      else
        match s.tx with
        | some x => s.endOwnSlot t k x
        | none => s.endHeardSlot t k)

/-- The timeline unit's counts and the receive unit's quiet counting, in the order the free choice gives (R29, R30,
R136, R137, R155). -/
def State.endCycle (s : State) : State :=
  if Config.quietCountFirst s.choices then s.receiveCycleEnd.countHoldover else s.countHoldover.receiveCycleEnd

/-- Cycle end (R30). -/
def execCycleEnd (s : State) : Host.Outcome State Fault Refusal :=
  .next
    (s.atEvent .cycleEnd fun _ s =>
      { (s.nextIs .cycleStart).endCycle with choices := s.choices + 1 })

end Sys2Proof.Machine
end

