-- ==== Sys2Proof/Machine/Requests.lean ====
section
/-! DEFINITION. What each host request answers and does at the moment it is taken (R163), on every part of the state but
the transaction record. An argument is the byte the host sent and is judged here (R176). -/

namespace Sys2Proof.Machine

/-- What a taken request gives the link: its status, its response and its pending commit (R163, R170). -/
structure Reply where
  status   : Status
  response : List Byte
  commit   : Option CommitTarget
deriving DecidableEq, Repr

/-- A status with no response: every refusal, EMPTY, and OK of a request that is no read (R163). -/
def Reply.bare (status : Status) : Reply := { status := status, response := [], commit := none }

/-- The answer to an accepted read (R163). -/
def Reply.read (response : List Byte) : Reply := { status := .ok, response := response, commit := none }

/-- The answer to a consuming read that returned a record (R170). -/
def Reply.consuming (response : List Byte) (target : CommitTarget) : Reply :=
  { status := .ok, response := response, commit := some target }

/-- A request that is refused or has nothing to do changes nothing (R163). -/
def State.refuse (s : State) (status : Status) : Reply × State := (Reply.bare status, s)

/-- A request accepted with OK and this effect. -/
def State.accept (s : State) : Reply × State := (Reply.bare .ok, s)

/-- An argument byte as a stream number, if it is 0 to 7. -/
def streamArg (b : Byte) : Option StreamNo := if h : b.toNat < 8 then some ⟨b.toNat, h⟩ else none

/-- An argument byte as a subscription entry number, if it is 0 to 15. -/
def entryArg (b : Byte) : Option EntryNo := if h : b.toNat < 16 then some ⟨b.toNat, h⟩ else none

/-- An argument byte as a slot number, if it is 0 to 47. -/
def slotArg (b : Byte) : Option SlotNo := if h : b.toNat < 48 then some ⟨b.toNat, h⟩ else none

/-- An argument byte as a station address, if it is 1 to 31. -/
def addressArg (b : Byte) : Option Address :=
  if 1 ≤ b.toNat ∧ b.toNat ≤ 31 then some (b.setWidth 5) else none

/-- The configuration that CONFIGURE's arguments name, absent where they draw BAD_ARG (R22). -/
def configurationOf (address : Byte) (seed : Half) (founderEligible beaconEligible : Bool) : Option Configuration :=
  match addressArg address with
  | none => none
  | some a =>
    if seed = 0 ∨ (founderEligible = true ∧ beaconEligible = false) then none
    else some { address := a, seed := seed, founderEligible := founderEligible, beaconEligible := beaconEligible }

/-- CONFIGURE (R22): the record is stored, the generator seeded and the station is READY. -/
def State.configure (address : Byte) (seed : Half) (founderEligible beaconEligible : Bool) (s : State) :
    Reply × State :=
  if s.station = .unconfigured then
    match configurationOf address seed founderEligible beaconEligible with
    | none => s.refuse .badArg
    | some c => ({ s with config := c, draws := 0 }.enter .ready .configure).accept
  else s.refuse .locked

/-- START (R24): the receiver is switched on and the listen timer started. -/
def State.startRequest (s : State) : Reply × State :=
  if s.station = .ready then (s.switchOnReceiver.startTimer.enter .listen .start).accept else s.refuse .badState

/-- STOP by station state (R34 to R36). -/
def State.stopRequest (s : State) : Reply × State :=
  match s.station with
  | .unconfigured => s.refuse .badState
  | .ready => s.accept
  | .listen => s.stopEarly.accept
  | .settle => s.stopEarly.accept
  | .active => s.stopActive.accept
  | .leaving => s.accept

/-- Another stream in use has this tag (R107). -/
def State.tagTaken (s : State) (i : StreamNo) (tag : Byte) : Bool :=
  allStreams.any fun j => j != i && s.streams[j].state.inUse && s.streams[j].tag == tag

/-- The record of a stream just opened (R107). -/
def Stream.opened (tag : Byte) (wanted : Nat) : Stream :=
  { state := .claiming, tag := tag, wanted := wanted, held := [], attempts := 0, backoff := 0, deferral := 0,
    shortPosted := false, queue := [], sequence := 0, blocksSent := 0, underruns := 0, slotsLost := 0,
    failure := none }

/-- OPEN_TX (R107), its checks in the rule's order. -/
def State.openTx (stream tag wanted : Byte) (s : State) : Reply × State :=
  if s.station = .unconfigured ∨ s.station = .leaving then s.refuse .badState
  else
    match streamArg stream with
    | none => s.refuse .badArg
    | some i =>
      if ¬(1 ≤ wanted.toNat ∧ wanted.toNat ≤ 4) then s.refuse .badArg
      else if s.streams[i].state ≠ .idle then s.refuse .busy
      else if s.tagTaken i tag then s.refuse .duplicate
      else (s.modStream i fun _ => Stream.opened tag wanted.toNat).accept

/-- CLOSE_TX (R116, R117). -/
def State.closeTx (stream : Byte) (s : State) : Reply × State :=
  match streamArg stream with
  | none => s.refuse .badArg
  | some i =>
    match s.streams[i].state with
    | .idle => s.refuse .badState
    | .closing => s.refuse .badState
    | .claiming => (s.closeStream i).accept
    | .live => (s.closeStream i).accept
    | .failed => (s.closeFailed i).accept

/-- A stream takes blocks (R105, R108). -/
def StreamState.takesBlocks : StreamState → Bool
  | .claiming | .live => true
  | .idle | .closing | .failed => false

/-- PUSH (R108, R145), its checks in the rule's order. -/
def State.push (stream : Byte) (payload : Payload) (s : State) : Reply × State :=
  match streamArg stream with
  | none => s.refuse .badArg
  | some i =>
    if ¬ s.streams[i].state.takesBlocks then s.refuse .badState
    else if Config.txBlocks ≤ s.blocksOf i then s.refuse .full
    else
      match s.givenBuffer with
      | none => s.refuse .poolEmpty
      | some b =>
        ((s.allocate b).modStream i fun r => { r with queue := r.queue ++ [{ buffer := b, data := payload }] }).accept

/-- Another used entry follows this source and tag (R127). -/
def State.pairTaken (s : State) (e : EntryNo) (source : Address) (tag : Byte) : Bool :=
  allEntries.any fun d => d != e && s.subs[d].state.used && s.subs[d].source == source && s.subs[d].tag == tag

/-- SUBSCRIBE (R127), its checks in the rule's order. -/
def State.subscribe (entry source tag : Byte) (s : State) : Reply × State :=
  if s.station = .unconfigured ∨ s.station = .leaving then s.refuse .badState
  else
    match entryArg entry, addressArg source with
    | some e, some a =>
      if a = s.config.address then s.refuse .badArg
      else if s.subs[e].state ≠ .idle then s.refuse .busy
      else if s.pairTaken e a tag then s.refuse .duplicate
      else
        (s.modSub e fun r =>
          { r with state := .waiting, source := a, tag := tag, expected := none, quietCount := 0,
                   presence := false }).accept
    | none, _ => s.refuse .badArg
    | some _, none => s.refuse .badArg

/-- UNSUBSCRIBE (R128). -/
def State.unsubscribe (entry : Byte) (s : State) : Reply × State :=
  match entryArg entry with
  | none => s.refuse .badArg
  | some e =>
    if s.subs[e].state = .idle then s.refuse .badState
    else
      ((s.release s.subs[e].buffers).modSub e fun r =>
        { r with state := .idle, expected := none, quietCount := 0, presence := false, queue := [] }).accept

/-- POP (R138). -/
def State.pop (entry : Byte) (s : State) : Reply × State :=
  match entryArg entry with
  | none => s.refuse .badArg
  | some e =>
    match s.subs[e].queue with
    | [] => s.refuse .empty
    | block :: _ => (Reply.consuming block.bytes (.receiveQueue e), s)

/-- READ_EVENT (R156). -/
def State.readEvent (s : State) : Reply × State :=
  match s.events with
  | [] => s.refuse .empty
  | r :: _ => (Reply.consuming r.bytes .eventQueue, s)

/-- The READ_STATION response (R41, R177). -/
def State.stationBytes (s : State) : List Byte :=
  [s.station.byte, s.config.address.setWidth 8,
   (s.timeline.map fun t => t.founder.setWidth 8).getD absentByte, flagBit 0 s.timeline.isSome]
    ++ halfBytes ((s.timeline.map (·.cycle)).getD 0)
    ++ [natByte s.holdover, natByte s.settle, natByte s.freeBuffers]
    ++ halfBytes s.counters.cleanBeacons ++ halfBytes s.counters.beaconClashes
    ++ halfBytes s.counters.cycleSlips ++ halfBytes s.counters.foreignIgnored
    ++ halfBytes s.counters.collidedSlots ++ halfBytes s.counters.damagedSlots
    ++ halfBytes s.counters.receiveDrops

/-- READ_STATION (R41). -/
def State.readStation (s : State) : Reply × State := (Reply.read s.stationBytes, s)

/-- READ_STREAM (R122). -/
def State.readStream (stream : Byte) (s : State) : Reply × State :=
  match streamArg stream with
  | none => s.refuse .badArg
  | some i => (Reply.read (s.streams[i].bytes i (s.inTransitOf i)), s)

/-- READ_SUB (R141). -/
def State.readSub (entry : Byte) (s : State) : Reply × State :=
  match entryArg entry with
  | none => s.refuse .badArg
  | some e => (Reply.read (s.subs[e].bytes e), s)

/-- The clean count of the lane that carries a PROBE entry (R80, R81). -/
def State.cleanCountOf (s : State) (e : MapEntry) : Nat :=
  match e with
  | .probe l _ => (s.lanes[l].map (·.cleanCount)).getD 0
  | .unknown _ | .free | .held .. | .cooling _ | .mine .. => 0

/-- READ_SLOT (R80). -/
def State.readSlot (slot : Byte) (s : State) : Reply × State :=
  match slotArg slot with
  | none => s.refuse .badArg
  | some k => (Reply.read (s.map[k].bytes k (s.cleanCountOf s.map[k])), s)

/-- A code byte that names no request (R166). -/
def State.unknownRequest (s : State) : Reply × State := s.refuse .badCode

/-- The request a code names, served from its argument bytes (R162, R176). RESET is no request with a reply; the
link handles it (R167). -/
def RequestCode.serve (c : RequestCode) (args : List Byte) (s : State) : Reply × State :=
  match c with
  | .configure =>
    s.configure (byteAt args 0) (byteAt args 1 ++ byteAt args 2) ((byteAt args 3).getLsbD 0)
      ((byteAt args 3).getLsbD 1)
  | .start => s.startRequest
  | .stop => s.stopRequest
  | .reset => s.accept
  | .openTx => s.openTx (byteAt args 0) (byteAt args 1) (byteAt args 2)
  | .closeTx => s.closeTx (byteAt args 0)
  | .push => s.push (byteAt args 0) (Vector.ofFn fun i => byteAt args (1 + i.val))
  | .subscribe => s.subscribe (byteAt args 0) (byteAt args 1) (byteAt args 2)
  | .unsubscribe => s.unsubscribe (byteAt args 0)
  | .pop => s.pop (byteAt args 0)
  | .readEvent => s.readEvent
  | .readStation => s.readStation
  | .readStream => s.readStream (byteAt args 0)
  | .readSub => s.readSub (byteAt args 0)
  | .readSlot => s.readSlot (byteAt args 0)

end Sys2Proof.Machine
end

