-- ==== Sys2Proof/Machine/Link.lean ====
section
/-! DEFINITION. The host link (chapter 10): when a request is taken, and how the transaction record moves. -/

namespace Sys2Proof.Machine

/-- A request with these argument bytes can be taken now. Its transaction has begun, and what the link has received
of it, if anything, is its code and its first argument bytes, the last one still to come (R162). The taking byte
completes in this step, together with any earlier byte of the request that no `byteComplete` has brought (log entry
8). -/
def Link.awaits (l : Link) (code : Byte) (args : List Byte) : Bool :=
  match l with
  | .code => true
  | .arguments c received =>
      decide (c = code) && decide (received.length < args.length) && decide (received = args.take received.length)
  | .idle | .turnaround _ | .status _ | .response .. | .done => false

/-- The taking of a request (R163): its effect, and its status, response and pending commit in the transaction
record, whose phase becomes TURNAROUND. -/
def State.taken (s : State) (code : Byte) (serve : State → Reply × State) : State :=
  let r := serve s
  { r.2 with
    link := .turnaround { code := code, status := r.1.status, response := r.1.response, commit := r.1.commit } }

/-- A host request: taken if the link awaits it, and no request at all otherwise (R161, R164, R168). -/
def State.request (s : State) (code : Byte) (args : List Byte) (serve : State → Reply × State) : State :=
  s.unlessHeld fun s => if s.link.awaits code args then s.taken code serve else s

/-- The pending commit of a consuming read is made (R139, R157, R170). -/
def State.commit (s : State) (target : Option CommitTarget) : State :=
  match target with
  | none => s
  | some .eventQueue => s.dropEvent
  | some (.receiveQueue e) => s.popHead e

/-- The last byte of a transaction has been shifted out: the commit, if one is pending, and DONE (R164, R170). -/
def State.finishTransaction (s : State) (t : Taken) : State := { s.commit t.commit with link := .done }

/-- A byte completes (R162, R164). A byte that is a request's taking byte takes that request, and the last byte of a
consuming read's response commits it. -/
def State.takeByte (s : State) (b : Byte) : State :=
  match s.link with
  | .idle => s
  | .done => s
  | .code =>
    match RequestCode.ofByte b with
    | none => s.taken b State.unknownRequest
    | some .reset => s.deviceReset
    | some c => if c.argumentBytes = 0 then s.taken b (c.serve []) else { s with link := .arguments b [] }
  | .arguments c received =>
    match RequestCode.ofByte c with
    | none => s
    | some rc =>
      if received.length + 1 < rc.argumentBytes then { s with link := .arguments c (received ++ [b]) }
      else s.taken c (rc.serve (received ++ [b]))
  | .turnaround t => { s with link := .status t }
  | .status t => if t.response = [] then { s with link := .done } else { s with link := .response t 0 }
  | .response t n =>
    if n + 1 < t.response.length then { s with link := .response t (n + 1) } else s.finishTransaction t

/-- What the part drives on data out during the byte in progress (R161, R168): released while select is high, and 00h
but in STATUS and RESPONSE. -/
def State.dataOut (s : State) : Option Byte :=
  if s.selectLow then
    match s.link with
    | .status t => some t.status.byte
    | .response t n => some (byteAt t.response n)
    | .idle | .code | .arguments .. | .turnaround _ | .done => some 0x00
  else none

/-- The level on HDO, true for high, in bit `n` of the byte in progress, its most significant bit being bit 0 (R162, R177,
R178). Absent while data out is released. -/
def State.dataOutBit (s : State) (n : Nat) : Option Bool := s.dataOut.bind fun b => (byteBits b)[n]?

end Sys2Proof.Machine
end

