-- ==== Sys2Proof/Machine/HostRequests.lean ====
section
/-! DEFINITION. The meanings of the host's requests (rows CONFIGURE to UNKNOWN_CODE), each over the taking of a request
by the link (R163). -/

namespace Sys2Proof.Machine

/-- CONFIGURE, taken at its fourth argument byte (R22). -/
def execConfigure (address : Byte) (seed : Half) (founderEligible beaconEligible : Bool) (s : State) :
    Host.Outcome State Fault Refusal :=
  .next (s.request RequestCode.configure.byte
    (address :: (halfBytes seed ++ [choicesByte founderEligible beaconEligible]))
    (State.configure address seed founderEligible beaconEligible))

/-- START, taken at its code byte (R24). -/
def execStart (s : State) : Host.Outcome State Fault Refusal :=
  .next (s.request RequestCode.start.byte [] State.startRequest)

/-- STOP, taken at its code byte (R34 to R36). -/
def execStop (s : State) : Host.Outcome State Fault Refusal :=
  .next (s.request RequestCode.stop.byte [] State.stopRequest)

/-- RESET, taken at its code byte: a device reset with no turnaround, status or response (R167). -/
def execReset (s : State) : Host.Outcome State Fault Refusal :=
  .next (s.unlessHeld fun s => if s.link.awaits RequestCode.reset.byte [] then s.deviceReset else s)

/-- OPEN_TX, taken at its third argument byte (R107). -/
def execOpenTx (stream tag wanted : Byte) (s : State) : Host.Outcome State Fault Refusal :=
  .next (s.request RequestCode.openTx.byte [stream, tag, wanted] (State.openTx stream tag wanted))

/-- CLOSE_TX, taken at its argument byte (R116, R117). -/
def execCloseTx (stream : Byte) (s : State) : Host.Outcome State Fault Refusal :=
  .next (s.request RequestCode.closeTx.byte [stream] (State.closeTx stream))

/-- PUSH, taken at the last of its 24 payload bytes (R108). -/
def execPush (stream : Byte) (payload : Payload) (s : State) : Host.Outcome State Fault Refusal :=
  .next (s.request RequestCode.push.byte (stream :: payload.toList) (State.push stream payload))

/-- SUBSCRIBE, taken at its third argument byte (R127). -/
def execSubscribe (entry source tag : Byte) (s : State) : Host.Outcome State Fault Refusal :=
  .next (s.request RequestCode.subscribe.byte [entry, source, tag] (State.subscribe entry source tag))

/-- UNSUBSCRIBE, taken at its argument byte (R128). -/
def execUnsubscribe (entry : Byte) (s : State) : Host.Outcome State Fault Refusal :=
  .next (s.request RequestCode.unsubscribe.byte [entry] (State.unsubscribe entry))

/-- POP, taken at its argument byte (R138). -/
def execPop (entry : Byte) (s : State) : Host.Outcome State Fault Refusal :=
  .next (s.request RequestCode.pop.byte [entry] (State.pop entry))

/-- READ_EVENT, taken at its code byte (R156). -/
def execReadEvent (s : State) : Host.Outcome State Fault Refusal :=
  .next (s.request RequestCode.readEvent.byte [] State.readEvent)

/-- READ_STATION, taken at its code byte (R41). -/
def execReadStation (s : State) : Host.Outcome State Fault Refusal :=
  .next (s.request RequestCode.readStation.byte [] State.readStation)

/-- READ_STREAM, taken at its argument byte (R122). -/
def execReadStream (stream : Byte) (s : State) : Host.Outcome State Fault Refusal :=
  .next (s.request RequestCode.readStream.byte [stream] (State.readStream stream))

/-- READ_SUB, taken at its argument byte (R141). -/
def execReadSub (entry : Byte) (s : State) : Host.Outcome State Fault Refusal :=
  .next (s.request RequestCode.readSub.byte [entry] (State.readSub entry))

/-- READ_SLOT, taken at its argument byte (R80). -/
def execReadSlot (slot : Byte) (s : State) : Host.Outcome State Fault Refusal :=
  .next (s.request RequestCode.readSlot.byte [slot] (State.readSlot slot))

/-- A code byte that names no request, answered with BAD_CODE (R166). It is known at the code byte, so no argument of
it is ever received. A code that names a request is no unknown code. -/
def execUnknownCode (code : Byte) (s : State) : Host.Outcome State Fault Refusal :=
  .next (if RequestCode.ofByte code = none then s.request code [] State.unknownRequest else s)

end Sys2Proof.Machine
end

