-- ==== Sys2Proof/Machine/LineEvents.lean ====
section
/-! DEFINITION. The meanings of what the line reports and of the listen timer's expiry (rows CARRIER_START to
LISTEN_TIMER_EXPIRY). -/

namespace Sys2Proof.Machine

/-- Activity appears on a quiet pair (R7). In LISTEN it holds the timer (R25). The level of the pair is the line's own,
whatever the part's state. -/
def execCarrierStart (time : Time) (s : State) : Host.Outcome State Fault Refusal :=
  .next
    (if s.carrier.isSome then s
     else if s.station = .listen then { s with carrier := some time, listenTimer := s.listenTimer.hold }
     else { s with carrier := some time })

/-- The pair has fallen quiet, as reported 0.2 µs after its last level change (R7, R174). In LISTEN the timer is
restarted with a new draw (R25); on a timeline the stretch of carrier stands for classification (R8). -/
def execCarrierEnd (time : Time) (s : State) : Host.Outcome State Fault Refusal :=
  .next
    (match s.carrier with
     | none => s
     | some since =>
       if s.station = .listen then ({ s with carrier := none }.hears time).startTimer
       else if s.station.onTimeline then
         { s with
           carrier := none
           reports :=
             { s.reports with
               stretches := s.reports.stretches ++ [{ begins := since, ends := time - Config.quietTime }] } }
       else { s with carrier := none })

/-- A frame report is gathered for the division in progress (R8). -/
def State.gatherFrame (s : State) (r : FrameReport) : State :=
  { s with reports := { s.reports with frames := s.reports.frames ++ [r] } }

/-- A well-formed beacon is handed to the beacon unit at once (R7): for adoption in LISTEN (R28), and on a timeline to
be sorted by founder (R54). -/
def State.handBeacon (s : State) (r : FrameReport) : State :=
  match r.frame with
  | some (.beacon b) =>
    if s.station = .listen then s.adopt b r.firstBit r.lastBit
    else
      match s.running with
      | some t => s.sortBeacon t b r.firstBit
      | none => s
  | some (.slot _) => s
  | none => s

/-- The receiver gives a report of a frame with this start pattern (R7, R174): it is on, and the pattern gives the frame's
kind. While the station transmits, what it hears is its own frame, whose outcome stands in place of a class (R9, R51). -/
def State.reportsFrame (s : State) (pattern : Half) : Bool :=
  s.station.receiverOn && (FrameKind.ofPattern pattern).isSome && !s.transmitting

/-- A frame received (R7): gathered on a timeline, and a clean beacon handed to the beacon unit. -/
def State.takeReport (s : State) (r : FrameReport) : State :=
  (if s.station.onTimeline then s.gatherFrame r else s).handBeacon r

/-- A frame report (R7), of a frame that the receiver does not miss by how it started (R17). -/
def execFrameReport (pattern : Half) (bytes : List Byte) (firstBit lastBit : Time) (s : State) :
    Host.Outcome State Fault Refusal :=
  .next
    (s.unlessHeld fun s =>
      if s.reportsFrame pattern then
        if s.receiver.misses firstBit lastBit then s.hears lastBit
        else
          (s.hears lastBit).takeReport
            { frame := Frame.parse pattern bytes, firstBit := firstBit, lastBit := lastBit }
      else s)

/-- A jam report, gathered with its time for the class or outcome of the division in progress (R7, R8, R12). -/
def execJamReport (time : Time) (s : State) : Host.Outcome State Fault Refusal :=
  .next
    (s.unlessHeld fun s =>
      if s.station.onTimeline then { s with reports := { s.reports with jams := s.reports.jams ++ [time] } }
      else s.hears time)

/-- Read-back finds a mismatch while the line interface sends: the frame stops and jam follows to the close (R11). -/
def execReadBackMismatch (s : State) : Host.Outcome State Fault Refusal :=
  .next
    (s.unlessHeld fun s =>
      match s.tx with
      | some { frame := f, stage := .sending } => { s with tx := some { frame := f, stage := .jamming } }
      | some { frame := _, stage := .handedOver } => s
      | some { frame := _, stage := .jamming } => s
      | none => s)

/-- The listen timer reaches zero in LISTEN (R26): a founder-eligible station founds, another draws a new wait. A timer
that is stopped or held by carrier does not reach zero (R25). -/
def execListenTimerExpiry (time : Time) (s : State) : Host.Outcome State Fault Refusal :=
  .next
    (s.unlessHeld fun s =>
      if s.station = .listen ∧ s.listenTimer.isCounting = true then
        if s.config.founderEligible then s.found time else s.startTimer
      else s)

end Sys2Proof.Machine
end

