-- ==== Sys2Proof/Machine/LinkEvents.lean ====
section
/-! DEFINITION. The meanings of the host link's events and of the reset input (rows TRANSACTION_BEGIN,
TRANSACTION_END, CONSUMING_READ_COMMIT, RESET_INPUT_ASSERTED, RESET_INPUT_RELEASED and BYTE_COMPLETE). -/

namespace Sys2Proof.Machine

/-- Select falls (R162): in IDLE the phase becomes CODE. While the reset input is held it starts no transaction
(R168). -/
def execTransactionBegin (s : State) : Host.Outcome State Fault Refusal :=
  .next
    (if s.selectLow then s
     else if s.resetHeld = false ∧ s.link = .idle then { s with selectLow := true, link := .code }
     else { s with selectLow := true })

/-- Select rises (R165): the phase becomes IDLE, a request not yet taken is discarded and a pending commit is
dropped. While the reset input is held the phase stays as it was set (R168). -/
def execTransactionEnd (s : State) : Host.Outcome State Fault Refusal :=
  .next
    (if s.selectLow = false then s
     else if s.resetHeld then { s with selectLow := false }
     else { s with selectLow := false, link := .idle })

/-- The last response byte of a consuming read completes (R170). -/
def execConsumingReadCommit (s : State) : Host.Outcome State Fault Refusal :=
  .next
    (s.unlessHeld fun s =>
      match s.link with
      | .response t n =>
        if t.commit ≠ none ∧ n + 1 = t.response.length then s.finishTransaction t else s
      | .idle | .code | .arguments .. | .turnaround _ | .status _ | .done => s)

/-- The reset input is asserted (R20, R168): a device reset, whose values are held until the release. -/
def execResetInputAsserted (s : State) : Host.Outcome State Fault Refusal :=
  .next (if s.resetHeld then s else { s.deviceReset with resetHeld := true })

/-- The reset input is released (R20, R168): the link is IDLE or DONE by the level of select. -/
def execResetInputReleased (s : State) : Host.Outcome State Fault Refusal :=
  .next
    (if s.resetHeld then { s with resetHeld := false, link := if s.selectLow then .done else .idle } else s)

/-- A byte of the host link completes (R162, R164). -/
def execByteComplete (dataIn : Byte) (s : State) : Host.Outcome State Fault Refusal :=
  .next (s.unlessHeld fun s => s.takeByte dataIn)

end Sys2Proof.Machine
end

