-- ==== Sys2Proof/Machine/Dispatch.lean ====
section
/-! DEFINITION. One arm per command: its meaning. -/

namespace Sys2Proof.Machine

def exec (i : Instr) (s : State) : Host.Outcome State Fault Refusal :=
  match i with
  | .configure a d f b => Sys2Proof.Machine.execConfigure a d f b s
  | .start => Sys2Proof.Machine.execStart s
  | .stop => Sys2Proof.Machine.execStop s
  | .reset => Sys2Proof.Machine.execReset s
  | .openTx n t w => Sys2Proof.Machine.execOpenTx n t w s
  | .closeTx n => Sys2Proof.Machine.execCloseTx n s
  | .push n d => Sys2Proof.Machine.execPush n d s
  | .subscribe e a t => Sys2Proof.Machine.execSubscribe e a t s
  | .unsubscribe e => Sys2Proof.Machine.execUnsubscribe e s
  | .pop e => Sys2Proof.Machine.execPop e s
  | .readEvent => Sys2Proof.Machine.execReadEvent s
  | .readStation => Sys2Proof.Machine.execReadStation s
  | .readStream n => Sys2Proof.Machine.execReadStream n s
  | .readSub e => Sys2Proof.Machine.execReadSub e s
  | .readSlot k => Sys2Proof.Machine.execReadSlot k s
  | .unknownCode c => Sys2Proof.Machine.execUnknownCode c s
  | .transactionBegin => Sys2Proof.Machine.execTransactionBegin s
  | .transactionEnd => Sys2Proof.Machine.execTransactionEnd s
  | .consumingReadCommit => Sys2Proof.Machine.execConsumingReadCommit s
  | .resetInputAsserted => Sys2Proof.Machine.execResetInputAsserted s
  | .resetInputReleased => Sys2Proof.Machine.execResetInputReleased s
  | .cycleStart => Sys2Proof.Machine.execCycleStart s
  | .beaconPosition p => Sys2Proof.Machine.execBeaconPosition p s
  | .beaconPositionClose p => Sys2Proof.Machine.execBeaconPositionClose p s
  | .slotPhaseStart => Sys2Proof.Machine.execSlotPhaseStart s
  | .slotOccurrenceBegin k => Sys2Proof.Machine.execSlotOccurrenceBegin k s
  | .leadIn => Sys2Proof.Machine.execLeadIn s
  | .slotOccurrenceEnd k => Sys2Proof.Machine.execSlotOccurrenceEnd k s
  | .cycleEnd => Sys2Proof.Machine.execCycleEnd s
  | .carrierStart t => Sys2Proof.Machine.execCarrierStart t s
  | .carrierEnd t => Sys2Proof.Machine.execCarrierEnd t s
  | .frameReport k b f l => Sys2Proof.Machine.execFrameReport k b f l s
  | .jamReport t => Sys2Proof.Machine.execJamReport t s
  | .readBackMismatch => Sys2Proof.Machine.execReadBackMismatch s
  | .listenTimerExpiry t => Sys2Proof.Machine.execListenTimerExpiry t s
  | .byteComplete b => Sys2Proof.Machine.execByteComplete b s

end Sys2Proof.Machine
end

