-- ==== Sys2Proof/WellFormed.lean ====
section
/-! DEFINITION. Which commands can arrive at the part at all. Most operands are bounded by their types; the rest is
checked here. A command that fails a check is no event of the part (log entry 9). -/

namespace Sys2Proof

open Sys2Proof.Machine

/-- Whether a command has the form the manual gives it: an unknown code names none of the fifteen requests (R176),
and a frame report has one of the two start patterns, the bytes and the length in time of its kind (R174). -/
def Instr.wellFormed : Instr → Bool
  | .unknownCode code => (RequestCode.ofByte code).isNone
  | .frameReport pattern bytes firstBit lastBit =>
      match FrameKind.ofPattern pattern with
      | some kind => decide (bytes.length = kind.wireBytes) && decide (lastBit = firstBit + kind.duration)
      | none => false
  | .configure .. | .start | .stop | .reset | .openTx .. | .closeTx .. | .push .. | .subscribe ..
  | .unsubscribe .. | .pop .. | .readEvent | .readStation | .readStream .. | .readSub .. | .readSlot ..
  | .transactionBegin | .transactionEnd | .consumingReadCommit | .resetInputAsserted | .resetInputReleased
  | .cycleStart | .beaconPosition .. | .beaconPositionClose .. | .slotPhaseStart | .slotOccurrenceBegin ..
  | .leadIn | .slotOccurrenceEnd .. | .cycleEnd | .carrierStart .. | .carrierEnd .. | .jamReport ..
  | .readBackMismatch | .listenTimerExpiry .. | .byteComplete .. => true

end Sys2Proof
end

