-- ==== Sys2Proof/Safety.lean ====
section
/-! DEFINITION. What counts as a legal state of the part: the laws that the chapters state over a block's own records,
each as one structure. And the words that statements about commands share: when a request can be taken, what its
answer leaves in the transaction record, and when a cycle event is due. -/

namespace Sys2Proof.Safety

open Sys2Proof.Machine

/-! ## Words for statements -/

/-- The reset input is released and the link awaits this request, with nothing of it, its code, or its code and its
first argument bytes already received (R162, log entry 8). -/
def Takes (s : State) (code : Byte) (args : List Byte) : Prop :=
  s.resetHeld = false ∧ s.link.awaits code args = true

/-- `s` with a request taken and answered: the phase is TURNAROUND and the record holds the code, the status, the
response and the pending commit (R163). -/
def answer (s : State) (code : Byte) (status : Status) (response : List Byte) (commit : Option CommitTarget) : State :=
  { s with link := .turnaround { code := code, status := status, response := response, commit := commit } }

/-- An event queue after these events are posted one after another with this cycle number (R154, R155). -/
def eventsAfter (queue : List EventRecord) (es : List Event) (cycle : Option Half) : List EventRecord :=
  es.foldl (fun q e => enqueueEvent q { event := e, cycle := cycle }) queue

/-- The timeline unit raises `b` next, on timeline `t`, and the reset input is released (R2). -/
def Due (s : State) (b : Boundary) (t : Timeline) : Prop :=
  s.resetHeld = false ∧ s.station.onTimeline = true ∧ s.timeline = some t ∧ t.nextBoundary = b

/-- The timeline record with another event due next. -/
def nextDue (t : Timeline) (b : Boundary) : Option Timeline := some { t with nextBoundary := b }

/-- The bytes of a transaction that complete one after another (R162), up to the first that gives no next state. -/
def clockBytes (s : State) : List Byte → Host.Outcome State Fault Refusal
  | [] => .next s
  | b :: rest =>
    match exec (.byteComplete b) s with
    | .next t => clockBytes t rest
    | .fault f => .fault f
    | .refused r => .refused r

/-- `v` is `u` after arrival in READY from LEAVING (R37, R39): off the timeline, the claim engine and the beacon unit empty,
the map cleared, every used subscription waiting, the session over, and STATION_STATE(READY, LEFT) posted. -/
def ArrivesLeft (u v : State) : Prop :=
  v = { u with
    station := .ready, timeline := none, holdover := 0, settle := 0, listenTimer := .stopped, sessionFlag := false
    drawnPosition := none, beaconHeard := false, reports := Reports.empty, tx := none, claimQueue := []
    lanes := v.lanes, map := v.map, subs := v.subs
    events := enqueueEvent u.events { event := .stationState .ready .left, cycle := none } } ∧
  (∀ l : LaneNo, v.lanes[l] = none) ∧ (∀ k : SlotNo, v.map[k] = .unknown 0) ∧
  ∀ e : EntryNo, v.subs[e] = if u.subs[e].state = .idle then u.subs[e] else
    { u.subs[e] with state := .waiting, expected := none, quietCount := 0, presence := false }

/-- The transitions of station state that chapter 2 lists, but for device reset. A STOP in ACTIVE that leaves no MINE
entry passes through LEAVING to READY in one command (R35). -/
def Moves : StationState → StationState → Bool
  | .unconfigured, .ready => true
  | .ready, .listen => true
  | .listen, .settle | .listen, .active | .listen, .ready => true
  | .settle, .active | .settle, .listen | .settle, .ready => true
  | .active, .listen | .active, .settle | .active, .leaving | .active, .ready => true
  | .leaving, .ready => true
  | _, _ => false

/-- No counter of `b` is below its value in `a`. -/
def CountersRise (a b : Counters) : Prop :=
  a.cleanBeacons ≤ b.cleanBeacons ∧ a.beaconClashes ≤ b.beaconClashes ∧ a.cycleSlips ≤ b.cycleSlips ∧
    a.foreignIgnored ≤ b.foreignIgnored ∧ a.collidedSlots ≤ b.collidedSlots ∧ a.damagedSlots ≤ b.damagedSlots ∧
    a.receiveDrops ≤ b.receiveDrops

/-- A frame with these first and last bits is one that the receiver does not receive: it began before START switched the
receiver on, or it was under way when a receiver that was on started afresh (R17). -/
def Missed (r : Receiver) (firstBit lastBit : Time) : Prop :=
  (∃ m, r = .switchedOn m ∧ firstBit < m) ∨ ∃ m, r = .restarted m ∧ firstBit < m ∧ m < lastBit

/-- In LISTEN a report of this time is no earlier than the START that switched the receiver on (log entry 17). -/
def heardBy (r : Receiver) (time : Time) : Receiver :=
  match r with
  | .switchedOn m => .switchedOn (min m time)
  | r => r

/-! ## The laws of the blocks

Each law is a structure of decidable statements, so that a state written out can be checked against it. -/

/-- The event queue (R154): at most 32 records, OVERFLOW only as the last one, and the 32nd record is OVERFLOW. -/
structure EventsLegal (s : State) : Prop where
  capacity : s.events.length ≤ Config.eventRecords
  overflowIsLast : ∀ r ∈ s.events.dropLast, r.event ≠ .overflow
  fullByOverflow : s.events.length = Config.eventRecords → s.events.getLast?.map (·.event) = some .overflow

/-- The timeline unit, the beacon unit and what the line interface may send (R17, R19, R22, R23, R25, R42): which fields
are present in which station state, and their ranges. -/
structure StationLegal (s : State) : Prop where
  timelinePresent : s.timeline.isSome = s.station.onTimeline
  founderNamed : ∀ t ∈ s.timeline, t.founder ≠ 0
  holdoverRange : s.holdover < Config.holdoverLimit
  holdoverOff : s.station.onTimeline = false → s.holdover = 0
  settleRange : s.station = .settle → 1 ≤ s.settle ∧ s.settle ≤ Config.settleCycles
  settleOff : s.station ≠ .settle → s.settle = 0
  timerOff : s.station ≠ .listen → s.listenTimer = .stopped
  timerRuns : s.station = .listen →
    s.listenTimer ≠ .stopped ∧ (s.listenTimer.isCounting = true ↔ s.carrier = none)
  positionOnlyActive : s.station ≠ .active → s.drawnPosition = none
  heardOnlyOnTimeline : s.station.onTimeline = false → s.beaconHeard = false
  sendsWhereItMay : s.station ≠ .active → s.station ≠ .leaving → s.tx = none
  configClear : s.station = .unconfigured → s.config = Configuration.clear
  configSet : s.station ≠ .unconfigured →
    s.config.address ≠ 0 ∧ s.config.seed ≠ 0 ∧ (s.config.founderEligible = true → s.config.beaconEligible = true)
  sessionOver : s.station = .unconfigured ∨ s.station = .ready → s.sessionFlag = false

/-- The claim queue and the lanes (R83), and the PROBE entries, one per busy lane (R58, R73). -/
structure ClaimsLegal (s : State) : Prop where
  queueOnce : s.claimQueue.Nodup
  queuedClaims : ∀ i ∈ s.claimQueue, s.streams[i].state = .claiming ∧ s.probing i = 0
  lanedClaims : ∀ l : LaneNo, ∀ r ∈ s.lanes[l],
    s.streams[r.stream].state = .claiming ∧ s.map[r.slot] = .probe l r.stream ∧ r.cleanCount < Config.probeCycles
  lanesDiffer : ∀ r ∈ s.lanes[(0 : LaneNo)], ∀ q ∈ s.lanes[(1 : LaneNo)], r.stream ≠ q.stream
  probesLaned : ∀ (k : SlotNo) (l : LaneNo) (i : StreamNo), s.map[k] = .probe l i →
    ∃ r ∈ s.lanes[l], r.slot = k ∧ r.stream = i
  onlyActive : s.station ≠ .active → s.claimQueue = [] ∧ s.lanes[(0 : LaneNo)] = none ∧ s.lanes[(1 : LaneNo)] = none

/-- Slot `k` has ended in the cycle whose next event this is, and the cycle has not (R2). -/
def pastSlot (k : SlotNo) : Boundary → Bool
  | .slotBegin j | .slotEnd j => decide (k < j)
  | .cycleEnd => true
  | .cycleStart | .positionOpen _ | .positionClose _ | .slotPhaseStart => false

/-- How often slot `k` has ended since the station entered SETTLE: once for each cycle end, by the settle count, and once
more where it has ended in the cycle in progress (R29). -/
def endsInSettle (s : State) (k : SlotNo) : Nat :=
  Config.settleCycles - s.settle + if (s.timeline.map fun t => pastSlot k t.nextBoundary) = some true then 1 else 0

/-- The range of an entry's counts, and the entry states that a station state admits (R58, R59). An entry is UNKNOWN off
a timeline, with count 0, and in SETTLE as long as every occurrence of its slot has been SILENT, its count being how many
there were (R62). -/
def entryLegal (s : State) (k : SlotNo) : MapEntry → Bool
  | .unknown n =>
      if s.station.onTimeline then s.station == .settle && decide (n < Config.lease) && n == endsInSettle s k else n == 0
  | .free => s.station.onTimeline
  | .held _ n => decide (n < Config.lease) && s.station.onTimeline
  | .cooling n => decide (1 ≤ n) && decide (n ≤ Config.cool) && s.station.onTimeline
  | .probe _ _ => s.station == .active
  | .mine _ conflicts _ => decide (conflicts < Config.conflictLimit) && (s.station == .active || s.station == .leaving)

/-- The slot map (R58, R59). -/
def MapLegal (s : State) : Prop := ∀ k : SlotNo, entryLegal s k s.map[k] = true

/-- The entry is MINE and final-pending. -/
def finalPending : MapEntry → Bool
  | .mine _ _ f => f
  | .unknown _ | .free | .held .. | .cooling _ | .probe .. => false

/-- The transmission in progress is a slot frame with this mark. -/
def sendsMark (s : State) (m : Mark) : Bool :=
  match s.tx with
  | some { frame := .slot f, stage := _ } => f.mark == m
  | some { frame := .beacon _, stage := _ } => false
  | none => false

/-- One transmit stream (R84, R104 to R106): its held slots are its MINE entries, and its fields lie in the ranges of its
state. -/
structure StreamLegal (s : State) (i : StreamNo) : Prop where
  heldOnce : s.streams[i].held.Nodup
  heldMine : ∀ k : SlotNo, k ∈ s.streams[i].held ↔ s.map[k].isMineOf i = true
  heldRoom : s.streams[i].held.length + s.probing i ≤ s.streams[i].wanted
  wantedRange : 1 ≤ s.streams[i].wanted ∧ s.streams[i].wanted ≤ 4
  liveHolds : s.streams[i].state = .live → s.streams[i].held.length = s.streams[i].wanted
  idleHolds : s.streams[i].state = .idle ∨ s.streams[i].state = .failed → s.streams[i].held = []
  closingHolds : s.streams[i].state = .closing → s.streams[i].held ≠ []
  closingFinal : ∀ k ∈ s.streams[i].held, finalPending s.map[k] = (s.streams[i].state == .closing)
  blocksRoom : s.blocksOf i ≤ Config.txBlocks
  attemptsRange : s.streams[i].attempts < Config.attemptLimit
  backoffRange : s.streams[i].backoff < 32
  deferralRange : s.streams[i].deferral < Config.deferLimit
  claimFieldsClear : s.streams[i].state ≠ .claiming →
    s.streams[i].attempts = 0 ∧ s.streams[i].backoff = 0 ∧ s.streams[i].deferral = 0 ∧
      s.streams[i].shortPosted = false
  lanedReady : s.probing i ≠ 0 → s.streams[i].backoff = 0 ∧ s.streams[i].deferral = 0
  queuedReady : i ∈ s.claimQueue → s.streams[i].backoff = 0 ∧ s.streams[i].held.length < s.streams[i].wanted
  failureHeld : s.streams[i].failure.isSome = true ↔ s.streams[i].state = .failed
  leavingCloses : s.station = .leaving → s.streams[i].state = .idle ∨ s.streams[i].state = .closing
  liveOnlyActive : s.station ≠ .active → s.streams[i].state ≠ .live
  closingOnlyOnTimeline : s.station ≠ .active → s.station ≠ .leaving → s.streams[i].state ≠ .closing

/-- The stream table: every stream legal, no two streams in use with one tag (R107), and FINAL under way only in a slot
that is final-pending (R110). -/
structure StreamsLegal (s : State) : Prop where
  each : ∀ i : StreamNo, StreamLegal s i
  tagsDiffer : ∀ i j : StreamNo, i ≠ j → s.streams[i].state ≠ .idle → s.streams[j].state ≠ .idle →
    s.streams[i].tag ≠ s.streams[j].tag
  finalUnderWay : ∀ t ∈ s.timeline, ∀ k : SlotNo, t.nextBoundary = .slotEnd k → sendsMark s .final = true →
    s.map[k].isMine = true → finalPending s.map[k] = true

/-- The subscription table (R125 to R127). -/
structure SubsLegal (s : State) : Prop where
  queueRoom : ∀ e : EntryNo, s.subs[e].queue.length ≤ Config.rxBlocks
  quietRange : ∀ e : EntryNo, s.subs[e].quietCount < Config.lease
  quietOnlyActive : ∀ e : EntryNo, s.subs[e].state ≠ .active → s.subs[e].quietCount = 0
  idleEmpty : ∀ e : EntryNo, s.subs[e].state = .idle →
    s.subs[e].queue = [] ∧ s.subs[e].expected = none ∧ s.subs[e].presence = false
  noExpectation : ∀ e : EntryNo, s.subs[e].state = .waiting ∨ s.subs[e].state = .ended → s.subs[e].expected = none
  sourceNamed : ∀ e : EntryNo, s.subs[e].state ≠ .idle → s.subs[e].source ≠ 0
  pairsDiffer : ∀ d e : EntryNo, d ≠ e → s.subs[d].state ≠ .idle → s.subs[e].state ≠ .idle →
    (s.subs[d].source, s.subs[d].tag) ≠ (s.subs[e].source, s.subs[e].tag)

/-- Where the 192 buffers are: each in exactly one place (R143), and so 192 in all (R144). With what keeps it so: a stream
that is IDLE or CLOSING queues nothing, a lane's slot is PROBE, and the in-transit block is the DATA under way in a MINE
slot of its stream (R106). -/
structure PoolLegal (s : State) : Prop where
  once : ∀ b : BufferNo, s.buffers.count b = 1
  law : s.freeBuffers + s.txQueued + (if s.inTransit.isSome then 1 else 0) + s.rxQueued = Config.poolBuffers
  emptyWhenClosed : ∀ i : StreamNo, s.streams[i].state = .idle ∨ s.streams[i].state = .closing →
    s.streams[i].queue = []
  lanesProbe : ∀ l : LaneNo, ∀ r ∈ s.lanes[l], s.map[r.slot] = .probe l r.stream
  transitOnTimeline : ∀ b ∈ s.inTransit, s.station = .active ∨ s.station = .leaving
  transitMine : ∀ b ∈ s.inTransit, s.map[b.slot].isMineOf b.stream = true
  transitDue : ∀ b ∈ s.inTransit, s.timeline.map (·.nextBoundary) = some (.slotEnd b.slot)
  transitSent : ∀ b ∈ s.inTransit, sendsMark s .data = true
  transitReturns : ∀ b ∈ s.inTransit, b.disposal = .returnToQueue →
    s.streams[b.stream].state ≠ .idle ∧ s.streams[b.stream].state ≠ .closing

/-- The response of a pending commit is the record at the head of the queue it will take from (R138, R156, R170). -/
def commitLegal (s : State) (t : Taken) : Bool :=
  match t.commit with
  | none => true
  | some .eventQueue => s.events.head?.map EventRecord.bytes == some t.response
  | some (.receiveQueue e) => s.subs[e].queue.head?.map StoredBlock.bytes == some t.response

/-- What a transaction record holds in each phase (R161, R162, R170). -/
def phaseLegal (s : State) : Bool :=
  match s.link with
  | .arguments code received =>
    match RequestCode.ofByte code with
    | some c => decide (received.length < c.argumentBytes)
    | none => false
  | .turnaround t => commitLegal s t
  | .status t => commitLegal s t
  | .response t n => commitLegal s t && decide (n < t.response.length)
  | .idle | .code | .done => true

/-- The host link and the reset input (R161, R168). -/
structure LinkLegal (s : State) : Prop where
  phase : phaseLegal s = true
  idleBySelect : s.resetHeld = false → (s.link = .idle ↔ s.selectLow = false)
  heldQuiet : s.resetHeld = true → s.station = .unconfigured ∧ (s.link = .idle ∨ s.link = .done)

/-- Every law together. -/
structure Legal (s : State) : Prop where
  events : EventsLegal s
  station : StationLegal s
  claims : ClaimsLegal s
  map : MapLegal s
  streams : StreamsLegal s
  subs : SubsLegal s
  pool : PoolLegal s
  link : LinkLegal s

end Sys2Proof.Safety
end

