-- ==== Sys2Proof/Certificates/Slice0/Obligations.lean ====
section
/-! DEFINITION. The statements about the WSL-480, block by block. A statement about a command's result says the whole
next state: what is not written in it is unchanged. -/

open Sys2Proof Sys2Proof.Machine Sys2Proof.Safety

/-! ## The queue of commands, reset and the reset input -/

/-- A step takes the command at the front of the queue and runs it on the state with the queue's rest. With no command
waiting it is a microsecond of time, which a counting listen timer counts down (R25) and which changes nothing else: that
is the model's choice (log entry 2). -/
def Obligations.StepRunsFrontCommand : Prop :=
  (∀ (c : Instr) (rest : List Instr) (s : State),
    s.pending = c :: rest → step s = exec c { s with pending := rest }) ∧
  (∀ s : State, s.pending = [] →
    (∀ n, s.listenTimer = .counting n → step s = .next { s with listenTimer := .counting (n - 1) }) ∧
    ((∀ n, s.listenTimer ≠ .counting n) → step s = .next s))

/-- The state after device reset: the values that R20 and the rules it names give. That the link is IDLE rests on select
being high there, which is the model's choice, and so is the receiver's value (log entries 1 and 17). -/
def Obligations.ResetLeavesTheseValues : Prop :=
  State.reset.station = .unconfigured ∧
  State.reset.config = { address := 0, seed := 0, founderEligible := false, beaconEligible := false } ∧
  State.reset.timeline = none ∧ State.reset.holdover = 0 ∧ State.reset.settle = 0 ∧
  State.reset.listenTimer = .stopped ∧ State.reset.sessionFlag = false ∧
  State.reset.counters = { cleanBeacons := 0, beaconClashes := 0, cycleSlips := 0, foreignIgnored := 0,
                           collidedSlots := 0, damagedSlots := 0, receiveDrops := 0 } ∧
  State.reset.drawnPosition = none ∧ State.reset.beaconHeard = false ∧
  (∀ k : SlotNo, State.reset.activityCurrent[k] = false ∧ State.reset.activityPrevious[k] = false) ∧
  State.reset.reports = Reports.empty ∧ State.reset.receiver = .clear ∧ State.reset.tx = none ∧
  (∀ k : SlotNo, State.reset.map[k] = .unknown 0) ∧
  State.reset.claimQueue = [] ∧ (∀ l : LaneNo, State.reset.lanes[l] = none) ∧
  (∀ i : StreamNo, State.reset.streams[i] =
    { state := .idle, tag := 0, wanted := 1, held := [], attempts := 0, backoff := 0, deferral := 0,
      shortPosted := false, queue := [], sequence := 0, blocksSent := 0, underruns := 0, slotsLost := 0,
      failure := none }) ∧
  State.reset.inTransit = none ∧
  (∀ e : EntryNo, State.reset.subs[e] =
    { state := .idle, source := 0, tag := 0, expected := none, quietCount := 0, presence := false, queue := [],
      stored := 0, dropped := 0 }) ∧
  State.reset.freeBuffers = 192 ∧ (∀ b : BufferNo, b ∈ State.reset.freeList) ∧
  State.reset.events = [] ∧ State.reset.link = .idle

/-- Every law of `Legal` holds of the state after device reset. -/
def Obligations.ResetStateIsLegal : Prop := Legal State.reset

/-- A device reset, by the RESET request at its code byte or by the reset input: every block takes its reset value.
The levels at the pins, the waiting commands and the model's own count of free choices stay; the link waits in DONE
where select is low. RESET gives no status. The release of the input sets the phase by the level of select and changes
nothing else. That the levels, the queue and the count stay is the model's choice (log entries 1, 11 and 15), and so is
that a second assertion, and a release of an input already released, change nothing (log entry 9). -/
def Obligations.DeviceResetFromRequestAndInput : Prop :=
  ∀ s : State,
    (Takes s 0x1F [] →
      exec .reset s = .next { State.reset with
        pending := s.pending, resetHeld := false, selectLow := s.selectLow, carrier := s.carrier, choices := s.choices
        link := if s.selectLow then .done else .idle }) ∧
    (s.resetHeld = false →
      exec .resetInputAsserted s = .next { State.reset with
        pending := s.pending, resetHeld := true, selectLow := s.selectLow, carrier := s.carrier, choices := s.choices
        link := if s.selectLow then .done else .idle }) ∧
    (s.resetHeld = true →
      exec .resetInputAsserted s = .next s ∧
      exec .resetInputReleased s =
        .next { s with resetHeld := false, link := if s.selectLow = true then .done else .idle }) ∧
    (s.resetHeld = false → exec .resetInputReleased s = .next s)

/-- While the reset input is asserted, no command but its release changes any block: only the levels of select and of
the pair move. -/
def Obligations.HeldResetKeepsEveryBlock : Prop :=
  ∀ (c : Instr) (s t : State), s.resetHeld = true → LinkLegal s → c ≠ .resetInputReleased →
    exec c s = .next t → t = { s with selectLow := t.selectLow, carrier := t.carrier }

/-! ## Configuration and station state -/

/-- CONFIGURE (R22): accepted in UNCONFIGURED with an address from 1 to 31, a seed other than 0 and no founder that is
not beacon-eligible; BAD_ARG in UNCONFIGURED otherwise; LOCKED in every other state. That the record's cycle number is
absent rests on there being no timeline in UNCONFIGURED (R19). -/
def Obligations.ConfigureStoresOrRefuses : Prop :=
  ∀ (s : State) (address : Byte) (seed : Half) (founder beacon : Bool),
    Takes s 0x10 (address :: (halfBytes seed ++ [choicesByte founder beacon])) →
      (s.station = .unconfigured → s.timeline = none → 1 ≤ address.toNat → address.toNat ≤ 31 → seed ≠ 0 →
        (founder = true → beacon = true) →
        exec (.configure address seed founder beacon) s = .next (answer { s with
          station := .ready
          config := { address := address.setWidth 5, seed := seed, founderEligible := founder,
                      beaconEligible := beacon }
          draws := 0
          events := enqueueEvent s.events { event := .stationState .ready .configure, cycle := none } }
          0x10 .ok [] none)) ∧
      (s.station = .unconfigured →
        (address.toNat = 0 ∨ 31 < address.toNat ∨ seed = 0 ∨ (founder = true ∧ beacon = false)) →
        exec (.configure address seed founder beacon) s = .next (answer s 0x10 .badArg [] none)) ∧
      (s.station ≠ .unconfigured →
        exec (.configure address seed founder beacon) s = .next (answer s 0x10 .locked [] none))

/-- START (R24, R25): in READY the station listens, with the timer set to 3000 + 1000 × d microseconds for some d from
0 to 7 and held at once where carrier is present, and frames that began before the receiver was switched on, a moment after the
carrier began, are not to be received (R17; the moment is free, log entry 17); BAD_STATE with no effect in every other state. STOP in READY answers OK and in UNCONFIGURED BAD_STATE, each
with no effect (R34). -/
def Obligations.StartAndStopOffTheBus : Prop :=
  ∀ s : State,
    (Takes s 0x12 [] → s.station = .ready → exec .stop s = .next (answer s 0x12 .ok [] none)) ∧
    (Takes s 0x12 [] → s.station = .unconfigured → exec .stop s = .next (answer s 0x12 .badState [] none)) ∧
    (Takes s 0x11 [] → s.station = .ready → s.timeline = none →
      (s.carrier = none → ∃ d : Nat, d ≤ 7 ∧ exec .start s = .next (answer { s with
        station := .listen, draws := s.draws + 1, receiver := .clear, listenTimer := .counting (3000 + 1000 * d)
        events := enqueueEvent s.events { event := .stationState .listen .start, cycle := none } }
        0x11 .ok [] none)) ∧
      (∀ since : Time, s.carrier = some since → ∃ (d : Nat) (m : Time), d ≤ 7 ∧ since < m ∧
        exec .start s = .next (answer { s with
          station := .listen, draws := s.draws + 1, receiver := .switchedOn m, choices := s.choices + 1
          listenTimer := .held (3000 + 1000 * d)
          events := enqueueEvent s.events { event := .stationState .listen .start, cycle := none } }
          0x11 .ok [] none))) ∧
    (Takes s 0x11 [] → s.station ≠ .ready → exec .start s = .next (answer s 0x11 .badState [] none))

/-- In LEAVING a STOP answers OK and does nothing, every stream is CLOSING or IDLE, and OPEN_TX and SUBSCRIBE are
refused (R36). -/
def Obligations.LeavingTakesNoNewWork : Prop :=
  ∀ s : State, s.station = .leaving →
    (Takes s 0x12 [] → exec .stop s = .next (answer s 0x12 .ok [] none)) ∧
    (StreamsLegal s → ∀ i : StreamNo, s.streams[i].state = .closing ∨ s.streams[i].state = .idle) ∧
    (∀ stream tag wanted, Takes s 0x20 [stream, tag, wanted] →
      exec (.openTx stream tag wanted) s = .next (answer s 0x20 .badState [] none)) ∧
    (∀ entry source tag, Takes s 0x30 [entry, source, tag] →
      exec (.subscribe entry source tag) s = .next (answer s 0x30 .badState [] none))

/-- STOP in LISTEN or SETTLE (R34, R39): the station arrives in READY with STATION_STATE posted and then STREAM_CLOSED
for each CLAIMING stream in ascending number; every stream ends IDLE with its queue freed, its tag, sequence and
counters kept; every used subscription waits again; the timeline, the map, the beacon unit and the listen timer are as
R39 gives, and the session is over. -/
def Obligations.StopBeforeActiveArrivesInReady : Prop :=
  ∀ s : State, Legal s → Takes s 0x12 [] → s.station = .listen ∨ s.station = .settle →
    ∃ t : State, exec .stop s = .next (answer t 0x12 .ok [] none) ∧
      t = { s with
        station := .ready, timeline := none, holdover := 0, settle := 0, listenTimer := .stopped, sessionFlag := false
        drawnPosition := none, beaconHeard := false, reports := Reports.empty, tx := none, inTransit := none
        claimQueue := [], lanes := t.lanes, map := t.map, streams := t.streams, subs := t.subs
        freeList := s.freeList ++ s.streams.toList.flatMap fun r => r.queue.map (·.buffer)
        events := eventsAfter s.events (.stationState .ready .stop ::
          ((List.finRange 8).filter fun i => s.streams[i].state == .claiming).map .streamClosed) none } ∧
      (∀ l : LaneNo, t.lanes[l] = none) ∧ (∀ k : SlotNo, t.map[k] = .unknown 0) ∧
      (∀ i : StreamNo, t.streams[i] = { s.streams[i] with
        state := .idle, held := [], attempts := 0, backoff := 0, deferral := 0, shortPosted := false, queue := []
        failure := none }) ∧
      (∀ e : EntryNo, t.subs[e] = if s.subs[e].state = .idle then s.subs[e] else
        { s.subs[e] with state := .waiting, expected := none, quietCount := 0, presence := false })

/-- STOP in ACTIVE (R35, R37, R39). While a MINE entry remains, or while the division in progress carries the
station's own beacon or CLAIM, the station is LEAVING and draws no position; the claim engine is empty and every PROBE
entry HELD(absent); every MINE entry is final-pending; every stream that holds a slot is CLOSING and every other is
IDLE, all queues freed; a block in transit is freed at its slot end; and the events are STATION_STATE, then
STREAM_CLOSED for each CLAIMING stream that held no slot. With neither, the station is in READY at once, with
STATION_STATE(LEAVING, STOP), the STREAM_CLOSED events and STATION_STATE(READY, LEFT) posted in that order. -/
def Obligations.StopInActiveLeavesTheBus : Prop :=
  ∀ s : State, Legal s → Takes s 0x12 [] → s.station = .active →
    ((∃ (k : SlotNo) (i : StreamNo) (c : Nat) (f : Bool), s.map[k] = .mine i c f) ∨ s.carriesBeaconOrClaim = true →
      ∃ t : State, exec .stop s = .next (answer t 0x12 .ok [] none) ∧
        t = { s with
          station := .leaving, drawnPosition := none, claimQueue := [], lanes := t.lanes, map := t.map
          streams := t.streams, freeList := s.freeList ++ s.streams.toList.flatMap fun r => r.queue.map (·.buffer)
          inTransit := s.inTransit.map fun b => { b with disposal := .freeBuffer }
          events := eventsAfter s.events (.stationState .leaving .stop ::
            ((List.finRange 8).filter fun i => s.streams[i].state == .claiming && s.streams[i].held == []).map
              .streamClosed) s.cycleNumber } ∧
        (∀ l : LaneNo, t.lanes[l] = none) ∧
        (∀ k : SlotNo, t.map[k] =
          match s.map[k] with
          | .mine i c _ => .mine i c true
          | .probe _ _ => .held none 0
          | e => e) ∧
        (∀ i : StreamNo, t.streams[i] = { s.streams[i] with
          state := if s.streams[i].held = [] then .idle else .closing
          attempts := 0, backoff := 0, deferral := 0, shortPosted := false, queue := [], failure := none })) ∧
    ((∀ (k : SlotNo) (i : StreamNo) (c : Nat) (f : Bool), s.map[k] ≠ .mine i c f) → s.carriesBeaconOrClaim = false →
      ∃ t : State, exec .stop s = .next (answer t 0x12 .ok [] none) ∧
        t = { s with
          station := .ready, timeline := none, holdover := 0, settle := 0, listenTimer := .stopped
          sessionFlag := false, drawnPosition := none, beaconHeard := false, reports := Reports.empty, tx := none
          claimQueue := [], lanes := t.lanes, map := t.map, streams := t.streams, subs := t.subs
          freeList := s.freeList ++ s.streams.toList.flatMap fun r => r.queue.map (·.buffer)
          events := enqueueEvent (eventsAfter s.events (.stationState .leaving .stop ::
            ((List.finRange 8).filter fun i => s.streams[i].state == .claiming).map .streamClosed) s.cycleNumber)
            { event := .stationState .ready .left, cycle := none } } ∧
        (∀ l : LaneNo, t.lanes[l] = none) ∧ (∀ k : SlotNo, t.map[k] = .unknown 0) ∧
        (∀ i : StreamNo, t.streams[i] = { s.streams[i] with
          state := .idle, held := [], attempts := 0, backoff := 0, deferral := 0, shortPosted := false, queue := []
          failure := none }) ∧
        (∀ e : EntryNo, t.subs[e] = if s.subs[e].state = .idle then s.subs[e] else
          { s.subs[e] with state := .waiting, expected := none, quietCount := 0, presence := false }))

/-- The station state changes only along the table of chapter 2, and to UNCONFIGURED by a device reset alone. -/
def Obligations.StationMovesAlongTheTable : Prop :=
  ∀ (c : Instr) (s t : State), exec c s = .next t → t.station ≠ s.station →
    Moves s.station t.station = true ∨
      (t.station = .unconfigured ∧ (c = .reset ∨ c = .resetInputAsserted ∨ c = .byteComplete 0x1F))

/-- The configuration record keeps the values stored by CONFIGURE until the next device reset (R23): a command that
changes it finds or leaves the station UNCONFIGURED. -/
def Obligations.ConfigurationStandsUntilReset : Prop :=
  ∀ (c : Instr) (s t : State), exec c s = .next t → s.station ≠ .unconfigured → t.station ≠ .unconfigured →
    t.config = s.config

/-! ## Transmit streams and subscriptions -/

/-- OPEN_TX (R107), its checks in the rule's order: BAD_STATE, BAD_ARG, BUSY, DUPLICATE, and then OK with the record
set anew. -/
def Obligations.OpenTxChecksInOrder : Prop :=
  ∀ (s : State) (stream tag wanted : Byte), Takes s 0x20 [stream, tag, wanted] →
    (s.station = .unconfigured ∨ s.station = .leaving →
      exec (.openTx stream tag wanted) s = .next (answer s 0x20 .badState [] none)) ∧
    (s.station ≠ .unconfigured → s.station ≠ .leaving →
      (8 ≤ stream.toNat ∨ wanted.toNat = 0 ∨ 5 ≤ wanted.toNat →
        exec (.openTx stream tag wanted) s = .next (answer s 0x20 .badArg [] none)) ∧
      (∀ i : StreamNo, stream.toNat = i.val → 1 ≤ wanted.toNat → wanted.toNat ≤ 4 →
        (s.streams[i].state ≠ .idle →
          exec (.openTx stream tag wanted) s = .next (answer s 0x20 .busy [] none)) ∧
        (s.streams[i].state = .idle →
          ((∃ j : StreamNo, j ≠ i ∧ s.streams[j].state ≠ .idle ∧ s.streams[j].tag = tag) →
            exec (.openTx stream tag wanted) s = .next (answer s 0x20 .duplicate [] none)) ∧
          ((∀ j : StreamNo, j ≠ i → s.streams[j].state ≠ .idle → s.streams[j].tag ≠ tag) →
            exec (.openTx stream tag wanted) s = .next (answer { s with
              streams := s.streams.set i
                { state := .claiming, tag := tag, wanted := wanted.toNat, held := [], attempts := 0, backoff := 0
                  deferral := 0, shortPosted := false, queue := [], sequence := 0, blocksSent := 0
                  underruns := 0, slotsLost := 0, failure := none } }
              0x20 .ok [] none)))))

/-- CLOSE_TX of a CLAIMING or LIVE stream (R116, R98): its queue is freed and a block of it in transit is to be freed;
it leaves the claim queue and its probe is abandoned; its claim fields are clear. Where it holds slots on the timeline
it is CLOSING with its MINE entries final-pending, and otherwise IDLE at once with STREAM_CLOSED posted. -/
def Obligations.CloseTxOfOpenStream : Prop :=
  ∀ (s : State) (stream : Byte) (i : StreamNo), Legal s → Takes s 0x21 [stream] → stream.toNat = i.val →
    s.streams[i].state = .claiming ∨ s.streams[i].state = .live →
    ∃ t : State, exec (.closeTx stream) s = .next (answer t 0x21 .ok [] none) ∧
      t = { s with
        streams := s.streams.set i { s.streams[i] with
          state := if s.streams[i].held = [] then .idle else .closing
          attempts := 0, backoff := 0, deferral := 0, shortPosted := false, queue := [] }
        freeList := s.freeList ++ s.streams[i].queue.map (·.buffer)
        claimQueue := s.claimQueue.filter fun j => j ≠ i
        inTransit := s.inTransit.map fun b => if b.stream = i then { b with disposal := .freeBuffer } else b
        lanes := t.lanes, map := t.map
        events := if s.streams[i].held = [] then
            enqueueEvent s.events { event := .streamClosed i, cycle := s.cycleNumber }
          else s.events } ∧
      (∀ l : LaneNo, t.lanes[l] =
        match s.lanes[l] with
        | some r => if r.stream = i then none else some r
        | none => none) ∧
      (∀ k : SlotNo, t.map[k] =
        match s.map[k] with
        | .mine j c f => if j = i then .mine j c true else .mine j c f
        | .probe l j => if j = i then .held none 0 else .probe l j
        | e => e)

/-- CLOSE_TX of a FAILED stream frees its queue and makes it IDLE with no event (R117); of an IDLE or CLOSING stream
it is refused with BAD_STATE, and of a number above 7 with BAD_ARG (R116). -/
def Obligations.CloseTxOfFailedStreamAndRefusals : Prop :=
  ∀ (s : State) (stream : Byte), Takes s 0x21 [stream] →
    (∀ i : StreamNo, stream.toNat = i.val →
      (Legal s → s.streams[i].state = .failed →
        exec (.closeTx stream) s = .next (answer { s with
          streams := s.streams.set i { s.streams[i] with state := .idle, queue := [], failure := none }
          freeList := s.freeList ++ s.streams[i].queue.map (·.buffer) } 0x21 .ok [] none)) ∧
      (s.streams[i].state = .idle ∨ s.streams[i].state = .closing →
        exec (.closeTx stream) s = .next (answer s 0x21 .badState [] none))) ∧
    (8 ≤ stream.toNat → exec (.closeTx stream) s = .next (answer s 0x21 .badArg [] none))

/-- PUSH (R108, R145), its checks in the rule's order: BAD_ARG, BAD_STATE, FULL, POOL_EMPTY, and then OK with one
buffer of the free list taken and the block written into it at the tail of the queue. Which buffer is free (R143, log
entry 7). -/
def Obligations.PushChecksInOrder : Prop :=
  ∀ (s : State) (stream : Byte) (payload : Payload), Takes s 0x22 (stream :: payload.toList) →
    (8 ≤ stream.toNat → exec (.push stream payload) s = .next (answer s 0x22 .badArg [] none)) ∧
    (∀ i : StreamNo, stream.toNat = i.val →
      (s.streams[i].state ≠ .claiming → s.streams[i].state ≠ .live →
        exec (.push stream payload) s = .next (answer s 0x22 .badState [] none)) ∧
      (s.streams[i].state = .claiming ∨ s.streams[i].state = .live →
        (16 ≤ s.streams[i].queue.length + (if s.inTransit.map (·.stream) = some i then 1 else 0) →
          exec (.push stream payload) s = .next (answer s 0x22 .full [] none)) ∧
        (s.streams[i].queue.length + (if s.inTransit.map (·.stream) = some i then 1 else 0) < 16 →
          (s.freeBuffers = 0 → exec (.push stream payload) s = .next (answer s 0x22 .poolEmpty [] none)) ∧
          (0 < s.freeBuffers →
            ∃ b ∈ s.freeList, exec (.push stream payload) s = .next (answer { s with
              freeList := s.freeList.erase b, choices := s.choices + 1
              streams := s.streams.set i { s.streams[i] with
                queue := s.streams[i].queue ++ [{ buffer := b, data := payload }] } }
              0x22 .ok [] none)))))

/-- SUBSCRIBE (R127), its checks in the rule's order: BAD_STATE, BAD_ARG (an entry above 15, a source outside 1 to 31
or the station's own address), BUSY, DUPLICATE, and then OK with the entry WAITING. -/
def Obligations.SubscribeChecksInOrder : Prop :=
  ∀ (s : State) (entry source tag : Byte), Takes s 0x30 [entry, source, tag] →
    (s.station = .unconfigured ∨ s.station = .leaving →
      exec (.subscribe entry source tag) s = .next (answer s 0x30 .badState [] none)) ∧
    (s.station ≠ .unconfigured → s.station ≠ .leaving →
      (16 ≤ entry.toNat ∨ source.toNat = 0 ∨ 32 ≤ source.toNat ∨ source.toNat = s.config.address.toNat →
        exec (.subscribe entry source tag) s = .next (answer s 0x30 .badArg [] none)) ∧
      (∀ e : EntryNo, entry.toNat = e.val → 1 ≤ source.toNat → source.toNat ≤ 31 →
        source.toNat ≠ s.config.address.toNat →
        (s.subs[e].state ≠ .idle →
          exec (.subscribe entry source tag) s = .next (answer s 0x30 .busy [] none)) ∧
        (s.subs[e].state = .idle →
          ((∃ d : EntryNo, d ≠ e ∧ s.subs[d].state ≠ .idle ∧ s.subs[d].source = source.setWidth 5 ∧
              s.subs[d].tag = tag) →
            exec (.subscribe entry source tag) s = .next (answer s 0x30 .duplicate [] none)) ∧
          ((∀ d : EntryNo, d ≠ e → s.subs[d].state ≠ .idle →
              ¬ (s.subs[d].source = source.setWidth 5 ∧ s.subs[d].tag = tag)) →
            exec (.subscribe entry source tag) s = .next (answer { s with
              subs := s.subs.set e { s.subs[e] with
                state := .waiting, source := source.setWidth 5, tag := tag, expected := none, quietCount := 0
                presence := false } }
              0x30 .ok [] none)))))

/-- UNSUBSCRIBE (R128): BAD_ARG for an entry above 15, BAD_STATE for an IDLE one, and otherwise OK with the queue's
buffers freed and the entry IDLE, its source, tag and counters kept. -/
def Obligations.UnsubscribeFreesTheQueue : Prop :=
  ∀ (s : State) (entry : Byte), Takes s 0x31 [entry] →
    (16 ≤ entry.toNat → exec (.unsubscribe entry) s = .next (answer s 0x31 .badArg [] none)) ∧
    (∀ e : EntryNo, entry.toNat = e.val →
      (s.subs[e].state = .idle → exec (.unsubscribe entry) s = .next (answer s 0x31 .badState [] none)) ∧
      (s.subs[e].state ≠ .idle →
        exec (.unsubscribe entry) s = .next (answer { s with
          freeList := s.freeList ++ s.subs[e].queue.map (·.buffer)
          subs := s.subs.set e { s.subs[e] with
            state := .idle, expected := none, quietCount := 0, presence := false, queue := [] } }
          0x31 .ok [] none)))

/-! ## Reads -/

/-- POP (R138, R177): BAD_ARG, EMPTY, or OK with the 32 bytes of the head record and a pending commit; READ_EVENT
(R156): EMPTY, or OK with the six bytes of the head record and a pending commit. The record stays at the head. -/
def Obligations.ConsumingReadsReturnTheHead : Prop :=
  (∀ (s : State) (entry : Byte), Takes s 0x32 [entry] →
    (16 ≤ entry.toNat → exec (.pop entry) s = .next (answer s 0x32 .badArg [] none)) ∧
    (∀ e : EntryNo, entry.toNat = e.val →
      (s.subs[e].queue = [] → exec (.pop entry) s = .next (answer s 0x32 .empty [] none)) ∧
      (∀ (b : StoredBlock) (rest : List StoredBlock), s.subs[e].queue = b :: rest →
        exec (.pop entry) s = .next (answer s 0x32 .ok
          ([BitVec.ofNat 8 b.entry.val, b.source.setWidth 8, b.tag, b.cycle.extractLsb' 8 8,
            b.cycle.extractLsb' 0 8, BitVec.ofNat 8 b.slot.val, b.sequence, b.gap] ++ b.payload.toList)
          (some (.receiveQueue e)))))) ∧
  (∀ s : State, Takes s 0x40 [] →
    (s.events = [] → exec .readEvent s = .next (answer s 0x40 .empty [] none)) ∧
    (∀ (r : EventRecord) (rest : List EventRecord), s.events = r :: rest →
      exec .readEvent s = .next (answer s 0x40 .ok
        [r.event.kindByte, r.event.subjectByte, r.event.detailByte, if r.cycle = none then 0 else 1,
         (r.cycle.getD 0).extractLsb' 8 8, (r.cycle.getD 0).extractLsb' 0 8]
        (some .eventQueue))))

/-- READ_STATION, READ_STREAM, READ_SUB and READ_SLOT answer OK with the snapshot and change nothing else (R41, R81,
R123, R141, R171); a number out of range draws BAD_ARG. READ_SLOT gives for a PROBE entry the clean count of its lane
(R80). -/
def Obligations.ReadsAnswerAndChangeNothing : Prop :=
  ∀ s : State,
    (Takes s 0x41 [] → exec .readStation s = .next (answer s 0x41 .ok s.stationBytes none)) ∧
    (∀ b : Byte, Takes s 0x42 [b] →
      (8 ≤ b.toNat → exec (.readStream b) s = .next (answer s 0x42 .badArg [] none)) ∧
      (∀ i : StreamNo, b.toNat = i.val → exec (.readStream b) s =
        .next (answer s 0x42 .ok (s.streams[i].bytes i (s.inTransit.map (·.stream) == some i)) none))) ∧
    (∀ b : Byte, Takes s 0x43 [b] →
      (16 ≤ b.toNat → exec (.readSub b) s = .next (answer s 0x43 .badArg [] none)) ∧
      (∀ e : EntryNo, b.toNat = e.val → exec (.readSub b) s = .next (answer s 0x43 .ok (s.subs[e].bytes e) none))) ∧
    (∀ b : Byte, Takes s 0x44 [b] →
      (48 ≤ b.toNat → exec (.readSlot b) s = .next (answer s 0x44 .badArg [] none)) ∧
      (∀ k : SlotNo, b.toNat = k.val → exec (.readSlot b) s =
        .next (answer s 0x44 .ok (s.map[k].bytes k (s.cleanCountOf s.map[k])) none)) ∧
      ∀ (l : LaneNo) (i : StreamNo) (r : Lane), s.lanes[l] = some r → s.cleanCountOf (.probe l i) = r.cleanCount)

/-- Every byte of the four snapshots in its place, 23, 22, 12 and 10 of them (R177), and the codes of the value sets of
R176: states, reasons, causes, status codes, and the kind, subject and detail of an event record. -/
def Obligations.SnapshotLayouts : Prop :=
  (∀ s : State, s.stationBytes =
    [s.station.byte, s.config.address.setWidth 8,
     (match s.timeline with
      | some t => t.founder.setWidth 8
      | none => 0xFF),
     if s.timeline = none then 0 else 1] ++
    (match s.timeline with
      | some t => [t.cycle.extractLsb' 8 8, t.cycle.extractLsb' 0 8]
      | none => [0, 0]) ++
    [BitVec.ofNat 8 s.holdover, BitVec.ofNat 8 s.settle, BitVec.ofNat 8 s.freeList.length,
     s.counters.cleanBeacons.extractLsb' 8 8, s.counters.cleanBeacons.extractLsb' 0 8,
     s.counters.beaconClashes.extractLsb' 8 8, s.counters.beaconClashes.extractLsb' 0 8,
     s.counters.cycleSlips.extractLsb' 8 8, s.counters.cycleSlips.extractLsb' 0 8,
     s.counters.foreignIgnored.extractLsb' 8 8, s.counters.foreignIgnored.extractLsb' 0 8,
     s.counters.collidedSlots.extractLsb' 8 8, s.counters.collidedSlots.extractLsb' 0 8,
     s.counters.damagedSlots.extractLsb' 8 8, s.counters.damagedSlots.extractLsb' 0 8,
     s.counters.receiveDrops.extractLsb' 8 8, s.counters.receiveDrops.extractLsb' 0 8]) ∧
  (∀ (i : StreamNo) (inTransit : Bool) (r : Machine.Stream), r.bytes i inTransit =
    [BitVec.ofNat 8 i.val, r.state.byte, r.tag, BitVec.ofNat 8 r.wanted, BitVec.ofNat 8 r.held.length] ++
    (List.range 4).map (fun n =>
      match r.held[n]? with
      | some k => BitVec.ofNat 8 k.val
      | none => 0xFF) ++
    [BitVec.ofNat 8 r.attempts, BitVec.ofNat 8 r.backoff, BitVec.ofNat 8 r.deferral,
     (if r.shortPosted then 1 else 0) + (if inTransit then 2 else 0), BitVec.ofNat 8 r.queue.length, r.sequence,
     r.blocksSent.extractLsb' 8 8, r.blocksSent.extractLsb' 0 8, r.underruns.extractLsb' 8 8,
     r.underruns.extractLsb' 0 8, r.slotsLost.extractLsb' 8 8, r.slotsLost.extractLsb' 0 8,
     match r.failure with
      | none => 0
      | some why => why.byte]) ∧
  (∀ (e : EntryNo) (r : Subscription), r.bytes e =
    [BitVec.ofNat 8 e.val, r.state.byte, r.source.setWidth 8, r.tag,
     (if r.expected = none then 0 else 1) + (if r.presence then 2 else 0),
     (match r.expected with
      | some x => x
      | none => 0),
     BitVec.ofNat 8 r.quietCount, BitVec.ofNat 8 r.queue.length, r.stored.extractLsb' 8 8, r.stored.extractLsb' 0 8,
     r.dropped.extractLsb' 8 8, r.dropped.extractLsb' 0 8]) ∧
  (∀ (k : SlotNo) (cleanCount : Nat) (entry : MapEntry), entry.bytes k cleanCount = BitVec.ofNat 8 k.val ::
    (match entry with
      | .unknown n => [0, 0xFF, 0, BitVec.ofNat 8 n, 0xFF, 0xFF, 0xFF, 0xFF, 0xFF]
      | .free => [1, 0xFF, 0, 0, 0xFF, 0xFF, 0xFF, 0xFF, 0xFF]
      | .held none n => [2, 0xFF, 0, BitVec.ofNat 8 n, 0xFF, 0xFF, 0xFF, 0xFF, 0xFF]
      | .held (some (owner, tag)) n => [2, owner.setWidth 8, tag, BitVec.ofNat 8 n, 0xFF, 0xFF, 0xFF, 0xFF, 0xFF]
      | .cooling n => [3, 0xFF, 0, BitVec.ofNat 8 n, 0xFF, 0xFF, 0xFF, 0xFF, 0xFF]
      | .probe lane i =>
          [4, 0xFF, 0, 0, BitVec.ofNat 8 lane.val, BitVec.ofNat 8 i.val, BitVec.ofNat 8 cleanCount, 0xFF, 0xFF]
      | .mine i conflicts final =>
          [5, 0xFF, 0, 0, 0xFF, BitVec.ofNat 8 i.val, 0xFF, BitVec.ofNat 8 conflicts, if final then 1 else 0])) ∧
  [StationState.unconfigured, .ready, .listen, .settle, .active, .leaving].map StationState.byte =
    [0, 1, 2, 3, 4, 5] ∧
  [StreamState.idle, .claiming, .live, .closing, .failed].map StreamState.byte = [0, 1, 2, 3, 4] ∧
  [SubState.idle, .waiting, .active, .stale, .ended].map SubState.byte = [0, 1, 2, 3, 4] ∧
  [Reason.noSlot, .contention].map Reason.byte = [1, 2] ∧
  [Cause.configure, .start, .adopt, .found, .settled, .holdover, .merge, .stop, .left].map Cause.byte =
    [1, 2, 3, 4, 5, 6, 7, 8, 9] ∧
  [Status.ok, .empty, .badState, .badArg, .busy, .duplicate, .full, .poolEmpty, .locked, .badCode].map Status.byte =
    [1, 2, 3, 4, 5, 6, 7, 8, 9, 10] ∧
  ∀ v : Event, [v.kindByte, v.subjectByte, v.detailByte] =
    match v with
    | .stationState state cause => [1, state.byte, cause.byte]
    | .addressClash => [2, 0xFF, 0xFF]
    | .streamLive i k => [3, BitVec.ofNat 8 i.val, BitVec.ofNat 8 k.val]
    | .streamShort i why => [4, BitVec.ofNat 8 i.val, why.byte]
    | .streamLost i k => [5, BitVec.ofNat 8 i.val, BitVec.ofNat 8 k.val]
    | .streamFailed i why => [6, BitVec.ofNat 8 i.val, why.byte]
    | .streamClosed i => [7, BitVec.ofNat 8 i.val, 0xFF]
    | .subActive e k => [8, BitVec.ofNat 8 e.val, BitVec.ofNat 8 k.val]
    | .subStale e => [9, BitVec.ofNat 8 e.val, 0xFF]
    | .subEnded e k => [10, BitVec.ofNat 8 e.val, BitVec.ofNat 8 k.val]
    | .overflow => [11, 0xFF, 0xFF]

/-- A code byte that names none of the fifteen requests draws BAD_CODE in every station state and changes nothing
(R166). -/
def Obligations.UnknownCodeDrawsBadCode : Prop :=
  ∀ (s : State) (code : Byte), Takes s code [] →
    code ∉ ([0x10, 0x11, 0x12, 0x1F, 0x20, 0x21, 0x22, 0x30, 0x31, 0x32, 0x40, 0x41, 0x42, 0x43, 0x44] : List Byte) →
    exec (.unknownCode code) s = .next (answer s code .badCode [] none)

/-- A request that is refused, or EMPTY, changes no state of any block, and gives no response and no pending commit:
only the transaction record moves on (R163, R169). A commit is pending only after a POP or READ_EVENT that returned
OK, which changes nothing at its taking (R170). -/
def Obligations.RefusalChangesOnlyTheLink : Prop :=
  ∀ (c : RequestCode) (args : List Byte) (s : State) (reply : Reply) (t : State), c.serve args s = (reply, t) →
    (reply.status ≠ .ok → t = s ∧ reply.response = [] ∧ reply.commit = none) ∧
    (reply.commit ≠ none → (c = .pop ∨ c = .readEvent) ∧ reply.status = .ok ∧ t = s)

/-! ## The host link -/

/-- A request's bytes, its code and then its arguments in the order of R176, take the request that its command names:
clocked one after another from the CODE phase they leave the state that the command leaves. That a request command may
stand for all its bytes is the model's choice (log entry 8). -/
def Obligations.BytesTakeTheRequestTheySpell : Prop :=
  ∀ s : State, s.resetHeld = false → s.link = .code →
    (∀ address seed founder beacon,
      clockBytes s (0x10 :: address :: (halfBytes seed ++ [choicesByte founder beacon])) =
        exec (.configure address seed founder beacon) s) ∧
    clockBytes s [0x11] = exec .start s ∧
    clockBytes s [0x12] = exec .stop s ∧
    clockBytes s [0x1F] = exec .reset s ∧
    (∀ stream tag wanted, clockBytes s [0x20, stream, tag, wanted] = exec (.openTx stream tag wanted) s) ∧
    (∀ stream, clockBytes s [0x21, stream] = exec (.closeTx stream) s) ∧
    (∀ (stream : Byte) (payload : Payload),
      clockBytes s (0x22 :: stream :: payload.toList) = exec (.push stream payload) s) ∧
    (∀ entry source tag, clockBytes s [0x30, entry, source, tag] = exec (.subscribe entry source tag) s) ∧
    (∀ entry, clockBytes s [0x31, entry] = exec (.unsubscribe entry) s) ∧
    (∀ entry, clockBytes s [0x32, entry] = exec (.pop entry) s) ∧
    clockBytes s [0x40] = exec .readEvent s ∧
    clockBytes s [0x41] = exec .readStation s ∧
    (∀ stream, clockBytes s [0x42, stream] = exec (.readStream stream) s) ∧
    (∀ entry, clockBytes s [0x43, entry] = exec (.readSub entry) s) ∧
    (∀ slot, clockBytes s [0x44, slot] = exec (.readSlot slot) s) ∧
    (∀ code, RequestCode.ofByte code = none → clockBytes s [code] = exec (.unknownCode code) s)

/-- Select falling starts CODE in IDLE and does nothing else; select rising makes the phase IDLE whatever it was, with
a request's effect standing and a pending commit dropped (R162, R165). While the reset input is asserted the phase
stays (R168). Bytes after the taking move the phase from turnaround through status and response to DONE, where clocked
bytes are ignored (R164). Data out is released while select is high, and otherwise carries the status byte in STATUS, the
response byte in progress in RESPONSE, and 00h in every other phase (R161, R162, R178); each byte goes out, and comes in,
most significant bit first (R162, R177). That a fall with select already
low and a rise with select already high change nothing is the model's choice (log entry 9). -/
def Obligations.TransactionPhases : Prop :=
  ∀ s : State,
    (∀ b : Byte, s.resetHeld = false →
      (∀ t : Taken, s.link = .turnaround t → exec (.byteComplete b) s = .next { s with link := .status t }) ∧
      (∀ t : Taken, s.link = .status t → t.response = [] → exec (.byteComplete b) s = .next { s with link := .done }) ∧
      (∀ t : Taken, s.link = .status t → t.response ≠ [] →
        exec (.byteComplete b) s = .next { s with link := .response t 0 }) ∧
      (∀ (t : Taken) (n : Nat), s.link = .response t n → n + 1 < t.response.length →
        exec (.byteComplete b) s = .next { s with link := .response t (n + 1) }) ∧
      (∀ (t : Taken) (n : Nat), s.link = .response t n → t.response.length ≤ n + 1 → t.commit = none →
        exec (.byteComplete b) s = .next { s with link := .done }) ∧
      (s.link = .idle ∨ s.link = .done → exec (.byteComplete b) s = .next s)) ∧
    (s.selectLow = false →
      (s.resetHeld = false → s.link = .idle →
        exec .transactionBegin s = .next { s with selectLow := true, link := .code }) ∧
      (s.resetHeld = true ∨ s.link ≠ .idle → exec .transactionBegin s = .next { s with selectLow := true }) ∧
      exec .transactionEnd s = .next s) ∧
    (s.selectLow = true →
      (s.resetHeld = false → exec .transactionEnd s = .next { s with selectLow := false, link := .idle }) ∧
      (s.resetHeld = true → exec .transactionEnd s = .next { s with selectLow := false }) ∧
      exec .transactionBegin s = .next s) ∧
    (s.selectLow = false → s.dataOut = none) ∧
    (s.selectLow = true →
      (∀ t : Taken, s.link = .status t → s.dataOut = some t.status.byte) ∧
      (∀ (t : Taken) (n : Nat), s.link = .response t n → n < t.response.length → s.dataOut = t.response[n]?) ∧
      ((∀ t : Taken, s.link ≠ .status t) → (∀ (t : Taken) (n : Nat), s.link ≠ .response t n) →
        s.dataOut = some 0x00)) ∧
    (s.dataOut = none → ∀ n : Nat, s.dataOutBit n = none) ∧
    (∀ (b : Byte) (n : Nat), s.dataOut = some b → n < 8 → s.dataOutBit n = some (b.getLsbD (7 - n))) ∧
    ∀ (bits : Vector Bool 8) (n : Nat) (h : n < 8), (byteOfBits bits).getLsbD (7 - n) = bits[n]

/-- The last response byte of a consuming read commits it (R170, R139, R157): the head record leaves its queue, the
buffer of a popped block is free, and the phase is DONE. The command and the byte that completes do the same; at any
other moment, in RESPONSE or in any other phase or with the reset input asserted, the command does nothing. That both rows do it is the model's choice (log entries 8 and 9). -/
def Obligations.LastResponseByteCommits : Prop :=
  (∀ s : State, (s.resetHeld = true ∨ ∀ (t : Taken) (n : Nat), s.link ≠ .response t n) → exec .consumingReadCommit s = .next s) ∧
  ∀ (s : State) (t : Taken) (n : Nat), s.resetHeld = false → s.link = .response t n →
    (t.commit ≠ none → n + 1 = t.response.length →
      (∀ b : Byte, exec (.byteComplete b) s = exec .consumingReadCommit s) ∧
      (∀ (r : EventRecord) (rest : List EventRecord), t.commit = some .eventQueue → s.events = r :: rest →
        exec .consumingReadCommit s = .next { s with events := rest, link := .done }) ∧
      (∀ (e : EntryNo) (b : StoredBlock) (rest : List StoredBlock), t.commit = some (.receiveQueue e) →
        s.subs[e].queue = b :: rest →
        exec .consumingReadCommit s = .next { s with
          freeList := s.freeList ++ [b.buffer], subs := s.subs.set e { s.subs[e] with queue := rest }
          link := .done })) ∧
    (t.commit = none ∨ n + 1 ≠ t.response.length → exec .consumingReadCommit s = .next s)

/-! ## The cycle and the beacon unit -/

/-- Cycle start (R2, R15, R43): the cycle number advances by one modulo 65536, the boundaries move on by 1000 µs, the
current activity set becomes the previous one and is cleared, the beacon-heard flag is cleared, and an ACTIVE,
beacon-eligible station draws one of the eight positions. -/
def Obligations.CycleStartAdvancesAndDraws : Prop :=
  ∀ (s : State) (t : Timeline), Due s .cycleStart t →
    (s.station ≠ .active ∨ s.config.beaconEligible = false →
      exec .cycleStart s = .next { s with
        timeline := some { t with cycle := t.cycle + 1, startedAt := t.startedAt + 1000000
                                  nextBoundary := .positionOpen 0 }
        activityPrevious := s.activityCurrent, activityCurrent := noSlots, beaconHeard := false
        drawnPosition := none }) ∧
    (s.station = .active → s.config.beaconEligible = true → ∃ p : Position,
      exec .cycleStart s = .next { s with
        timeline := some { t with cycle := t.cycle + 1, startedAt := t.startedAt + 1000000
                                  nextBoundary := .positionOpen 0 }
        activityPrevious := s.activityCurrent, activityCurrent := noSlots, beaconHeard := false
        drawnPosition := some p, draws := s.draws + 1 })

/-- The opening of a beacon position (R44): at the drawn one the station's beacon is handed over, with the sender,
founder, position, cycle number and previous activity set, unless a beacon has been heard in the cycle; no other
position hands one over. That a report taken before the opening does not count in the position is the model's choice (log
entry 5). -/
def Obligations.BeaconPositionSendsUnlessHeard : Prop :=
  ∀ (s : State) (p : Position) (t : Timeline), Due s (.positionOpen p) t →
    (s.drawnPosition = some p → s.beaconHeard = false →
      exec (.beaconPosition p) s = .next { s with
        reports := Reports.empty, drawnPosition := none, timeline := nextDue t (.positionClose p)
        tx := some { frame := .beacon { sender := s.config.address, position := p, founder := t.founder
                                        cycle := t.cycle, occupancy := s.activityPrevious }
                     stage := .handedOver } }) ∧
    (s.drawnPosition = some p → s.beaconHeard = true →
      exec (.beaconPosition p) s = .next { s with
        reports := Reports.empty, drawnPosition := none, timeline := nextDue t (.positionClose p) }) ∧
    (s.drawnPosition ≠ some p →
      exec (.beaconPosition p) s = .next { s with
        reports := Reports.empty, timeline := nextDue t (.positionClose p) })

/-- The close of the position in which the station sent its beacon (R12, R45): COLLIDED, by a read-back mismatch or a
jam report in the position, counts a clash; CLEAN sets the beacon-heard flag, clears the holdover count and counts a
clean beacon. In LEAVING with no MINE entry the station then arrives in READY (R37). The two ends of the position
count as in it (log entry 5). -/
def Obligations.OwnBeaconOutcome : Prop :=
  ∀ (s : State) (p : Position) (t : Timeline) (x : Transmission), Due s (.positionClose p) t →
    s.tx = some x → x.stage ≠ .handedOver →
    ∀ u : State,
      ((x.stage = .jamming ∨ ∃ j ∈ s.reports.jams,
          t.startedAt + 12000 * p.val ≤ j ∧ j ≤ t.startedAt + 12000 * p.val + 12000) ∧
        u = { s with
          tx := none, reports := Reports.empty, timeline := nextDue t (Boundary.afterPosition p)
          counters := { s.counters with beaconClashes := bump s.counters.beaconClashes } } ∨
      (x.stage = .sending ∧ ∀ j ∈ s.reports.jams,
          ¬ (t.startedAt + 12000 * p.val ≤ j ∧ j ≤ t.startedAt + 12000 * p.val + 12000)) ∧
        u = { s with
          tx := none, reports := Reports.empty, timeline := nextDue t (Boundary.afterPosition p)
          beaconHeard := true, holdover := 0
          counters := { s.counters with cleanBeacons := bump s.counters.cleanBeacons } }) →
      ((s.station ≠ .leaving ∨ ∃ (k : SlotNo) (i : StreamNo) (c : Nat) (f : Bool), s.map[k] = .mine i c f) →
        exec (.beaconPositionClose p) s = .next u) ∧
      (s.station = .leaving → (∀ (k : SlotNo) (i : StreamNo) (c : Nat) (f : Bool), s.map[k] ≠ .mine i c f) →
        ∃ v : State, exec (.beaconPositionClose p) s = .next v ∧ ArrivesLeft u v)

/-- The close of a position in which the station did not send (R46, R47, R48, R51): SILENT, DAMAGED and a foreign
beacon change nothing more, COLLIDED counts a clash, and a clean beacon of the station's own timeline sets the flag,
clears holdover, counts, corrects the cycle number with a slip counted, trims the boundaries, merges its summary into
the map and is checked for an address clash. -/
def Obligations.HeardPositionIsTakenByClass : Prop :=
  ∀ (s : State) (p : Position) (t : Timeline), Due s (.positionClose p) t → s.tx = none →
    ((s.positionClass t p = .silent ∨ s.positionClass t p = .damaged ∨
        ∃ b, s.positionClass t p = .clean (.foreign b)) →
      exec (.beaconPositionClose p) s = .next { s with
        reports := Reports.empty, timeline := nextDue t (Boundary.afterPosition p) }) ∧
    (s.positionClass t p = .collided →
      exec (.beaconPositionClose p) s = .next { s with
        reports := Reports.empty, timeline := nextDue t (Boundary.afterPosition p)
        counters := { s.counters with beaconClashes := bump s.counters.beaconClashes } }) ∧
    (∀ (b : BeaconFrame) (firstBit : Time), s.positionClass t p = .clean (.own b firstBit) →
      ∃ u : State, exec (.beaconPositionClose p) s = .next u ∧
        u = { s with
          reports := Reports.empty, beaconHeard := true, holdover := 0, map := u.map
          timeline := some { t with
            cycle := b.cycle, startedAt := firstBit - (12000 * b.position.val + 1000)
            nextBoundary := Boundary.afterPosition p }
          counters := { s.counters with
            cleanBeacons := bump s.counters.cleanBeacons
            cycleSlips := if b.cycle = t.cycle then s.counters.cycleSlips else bump s.counters.cycleSlips }
          sessionFlag := s.sessionFlag || b.sender == s.config.address
          events := if b.sender = s.config.address ∧ s.sessionFlag = false then
              enqueueEvent s.events { event := .addressClash, cycle := some b.cycle }
            else s.events } ∧
        ∀ k : SlotNo, u.map[k] =
          if b.occupancy[k] = true then
            match s.map[k] with
            | .unknown _ => .held none 0
            | .free => .held none 0
            | e => e
          else s.map[k])

/-- The class of a division by the first line of R8's table that applies: COLLIDED for a jam report in it, SILENT for
no carrier, CLEAN for exactly one frame report, well formed for the division, whole in it and with no carrier outside
the frame, and DAMAGED otherwise. In a slot occurrence the frame is a well-formed slot frame, and in a beacon position a
clean beacon: of another founder, or of the station's own with its position field that of the position and its first bit
less than 50 ns from the lead-in (R9). How reports and stretches fall on intervals of time is log entry 5. -/
def Obligations.ClassIsTheFirstLineThatApplies : Prop :=
  ∀ (α : Type) (r : Reports) (carrier : Option Time) (opens closes : Time) (pick : FrameReport → Option α),
    ((∃ j ∈ r.jams, opens ≤ j ∧ j ≤ closes) → classify r carrier opens closes pick = .collided) ∧
    ((∀ j ∈ r.jams, ¬ (opens ≤ j ∧ j ≤ closes)) →
      (r.frames = [] → (∀ sp ∈ r.spans carrier closes, ¬ (sp.begins < closes ∧ opens < sp.ends)) →
        classify r carrier opens closes pick = .silent) ∧
      (∀ (f : FrameReport) (heard : α), r.frames = [f] → opens ≤ f.firstBit → f.lastBit ≤ closes →
        (∀ sp ∈ r.spans carrier closes, sp.begins < closes → opens < sp.ends →
          f.firstBit ≤ max sp.begins opens ∧ min sp.ends closes ≤ f.lastBit) →
        pick f = some heard → classify r carrier opens closes pick = .clean heard) ∧
      ((r.frames ≠ [] ∨ ∃ sp ∈ r.spans carrier closes, sp.begins < closes ∧ opens < sp.ends) →
        (∀ f : FrameReport, r.frames = [f] →
          ¬ (opens ≤ f.firstBit ∧ f.lastBit ≤ closes ∧
            (∀ sp ∈ r.spans carrier closes, sp.begins < closes → opens < sp.ends →
              f.firstBit ≤ max sp.begins opens ∧ min sp.ends closes ≤ f.lastBit) ∧ (pick f).isSome = true)) →
        classify r carrier opens closes pick = .damaged)) ∧
    (∀ (s : State) (t : Timeline) (k : SlotNo), s.slotClass t k =
      classify s.reports s.carrier (t.startedAt + 96000 + 18000 * k.val) (t.startedAt + 96000 + 18000 * k.val + 18000)
        pickSlotFrame) ∧
    (∀ (f : FrameReport) (g : SlotFrame), pickSlotFrame f = some g ↔ f.frame = some (.slot g)) ∧
    (∀ (s : State) (t : Timeline) (p : Position), s.positionClass t p =
      classify s.reports s.carrier (t.startedAt + 12000 * p.val) (t.startedAt + 12000 * p.val + 12000)
        (pickBeacon t p)) ∧
    (∀ (t : Timeline) (p : Position) (f : FrameReport),
      ((∀ b : BeaconFrame, f.frame ≠ some (.beacon b)) → pickBeacon t p f = none) ∧
      (∀ b : BeaconFrame, f.frame = some (.beacon b) →
        (b.founder ≠ t.founder → pickBeacon t p f = some (.foreign b)) ∧
        (b.founder = t.founder →
          (b.position = p → |f.firstBit - (t.startedAt + 12000 * p.val + 1000)| < 50 →
            pickBeacon t p f = some (.own b f.firstBit)) ∧
          (b.position ≠ p ∨ 50 ≤ |f.firstBit - (t.startedAt + 12000 * p.val + 1000)| → pickBeacon t p f = none))))

/-! ## Claiming -/

/-- The slot-phase start outside ACTIVE serves no queue (R85), and in ACTIVE with a FREE entry in the map it grants
idle lanes in lane order to queued streams in queue order (R86 to R88): every CLAIMING stream's backoff falls by one,
streams that may join do so in ascending number, and each grant makes a FREE entry PROBE, the lane busy with clean
count 0 and the stream's deferral 0. -/
def Obligations.SlotPhaseStartGrantsLanesInOrder : Prop :=
  ∀ (s : State) (t : Timeline), Due s .slotPhaseStart t →
    (s.station ≠ .active →
      exec .slotPhaseStart s = .next { s with timeline := nextDue t (.slotBegin 0) }) ∧
    (Legal s → s.station = .active → (∃ k : SlotNo, s.map[k] = .free) →
      ∀ queue : List StreamNo,
        queue = s.claimQueue ++ (List.finRange 8).filter (fun i =>
          s.streams[i].state == .claiming && s.streams[i].backoff - 1 == 0 && !s.claimQueue.contains i &&
            !s.laneCarries 0 i && !s.laneCarries 1 i && decide (s.streams[i].held.length < s.streams[i].wanted)) →
      ∃ u : State, exec .slotPhaseStart s = .next u ∧
        u = { s with
          timeline := nextDue t (.slotBegin 0), streams := u.streams, claimQueue := u.claimQueue, lanes := u.lanes
          map := u.map, draws := u.draws } ∧
        (∀ i : StreamNo, u.streams[i] = { s.streams[i] with
          backoff := if s.streams[i].state = .claiming then s.streams[i].backoff - 1 else s.streams[i].backoff
          deferral := if i ∈ queue ∧ i ∉ u.claimQueue then 0 else s.streams[i].deferral }) ∧
        (queue = [] ∨ (s.lanes[(0 : LaneNo)].isSome = true ∧ s.lanes[(1 : LaneNo)].isSome = true) →
          u.claimQueue = queue ∧ u.lanes = s.lanes ∧ u.map = s.map) ∧
        (∀ (i : StreamNo) (rest : List StreamNo), queue = i :: rest →
          (s.lanes[(0 : LaneNo)] = none → (s.lanes[(1 : LaneNo)].isSome = true ∨ rest = []) →
            ∃ k : SlotNo, s.map[k] = .free ∧ u.claimQueue = rest ∧ u.map = s.map.set k (.probe 0 i) ∧
              u.lanes = s.lanes.set 0 (some { stream := i, slot := k, cleanCount := 0 })) ∧
          (s.lanes[(0 : LaneNo)].isSome = true → s.lanes[(1 : LaneNo)] = none →
            ∃ k : SlotNo, s.map[k] = .free ∧ u.claimQueue = rest ∧ u.map = s.map.set k (.probe 1 i) ∧
              u.lanes = s.lanes.set 1 (some { stream := i, slot := k, cleanCount := 0 })) ∧
          (∀ (j : StreamNo) (more : List StreamNo), rest = j :: more →
            s.lanes[(0 : LaneNo)] = none → s.lanes[(1 : LaneNo)] = none →
            ∃ k : SlotNo, s.map[k] = .free ∧
              ((∃ m : SlotNo, m ≠ k ∧ s.map[m] = .free ∧ u.claimQueue = more ∧
                u.map = (s.map.set k (.probe 0 i)).set m (.probe 1 j) ∧
                u.lanes[(0 : LaneNo)] = some { stream := i, slot := k, cleanCount := 0 } ∧
                u.lanes[(1 : LaneNo)] = some { stream := j, slot := m, cleanCount := 0 }) ∨
              ((∀ m : SlotNo, m ≠ k → s.map[m] ≠ .free) ∧ u.claimQueue = j :: more ∧
                u.map = s.map.set k (.probe 0 i) ∧
                u.lanes = s.lanes.set 0 (some { stream := i, slot := k, cleanCount := 0 }))))))

/-- A slot-phase start in ACTIVE that finds no FREE entry grants nothing and counts a deferral for every queued
stream, new joiners included (R89); at the 32nd one a stream with no held slot leaves the queue and is FAILED with
NO_SLOT, and a stream with held slots starts its count again (R90). STREAM_FAILED, and STREAM_SHORT under the
short-posted flag, are posted in queue order, from the head (R96). -/
def Obligations.SlotPhaseStartWithoutFreeEntryDefers : Prop :=
  ∀ (s : State) (t : Timeline), Due s .slotPhaseStart t → Legal s → s.station = .active →
    (∀ k : SlotNo, s.map[k] ≠ .free) →
      ∀ queue : List StreamNo,
        queue = s.claimQueue ++ (List.finRange 8).filter (fun i =>
          s.streams[i].state == .claiming && s.streams[i].backoff - 1 == 0 && !s.claimQueue.contains i &&
            !s.laneCarries 0 i && !s.laneCarries 1 i && decide (s.streams[i].held.length < s.streams[i].wanted)) →
      ∃ u : State, exec .slotPhaseStart s = .next u ∧
        u = { s with
          timeline := nextDue t (.slotBegin 0), streams := u.streams
          claimQueue := queue.filter (fun i => !(s.streams[i].deferral + 1 == 32 && s.streams[i].held == []))
          events := u.events } ∧
        (∀ i : StreamNo, u.streams[i] =
          if i ∈ queue then
            if s.streams[i].deferral + 1 < 32 then
              { s.streams[i] with backoff := 0, deferral := s.streams[i].deferral + 1 }
            else if s.streams[i].held = [] then
              { s.streams[i] with
                state := .failed, attempts := 0, backoff := 0, deferral := 0, shortPosted := false
                failure := some .noSlot }
            else { s.streams[i] with backoff := 0, deferral := 0, shortPosted := true }
          else { s.streams[i] with
            backoff := if s.streams[i].state = .claiming then s.streams[i].backoff - 1 else s.streams[i].backoff }) ∧
        u.events = eventsAfter s.events (queue.filterMap fun i =>
          if s.streams[i].deferral + 1 < 32 then none
          else if s.streams[i].held = [] then some (.streamFailed i .noSlot)
          else if s.streams[i].shortPosted = true then none
          else some (.streamShort i .noSlot)) (some t.cycle)

/-! ## Slot occurrences -/

/-- The begin of a slot occurrence (R91, R110): a PROBE entry in ACTIVE hands over CLAIM; a MINE entry in ACTIVE or
LEAVING hands over FINAL where it is final-pending, else DATA with the head block, which goes in transit with disposal
RETURN, else FILL with the underrun counted; nothing is handed over for any other entry. That a report taken before the
opening does not count in the occurrence is the model's choice (log entry 5). -/
def Obligations.SlotBeginHandsOverByEntry : Prop :=
  ∀ (s : State) (k : SlotNo) (t : Timeline), Due s (.slotBegin k) t →
    (∀ (l : LaneNo) (i : StreamNo), s.map[k] = .probe l i → s.station = .active →
      exec (.slotOccurrenceBegin k) s = .next { s with
        reports := Reports.empty, timeline := nextDue t (.slotEnd k)
        tx := some { stage := .handedOver, frame := .slot {
          mark := .claim, owner := s.config.address, tag := s.streams[i].tag, sequence := s.streams[i].sequence
          payload := Vector.replicate 24 0 } } }) ∧
    (∀ (i : StreamNo) (c : Nat), s.station = .active ∨ s.station = .leaving →
      (s.map[k] = .mine i c true →
        exec (.slotOccurrenceBegin k) s = .next { s with
          reports := Reports.empty, timeline := nextDue t (.slotEnd k)
          tx := some { stage := .handedOver, frame := .slot {
            mark := .final, owner := s.config.address, tag := s.streams[i].tag, sequence := s.streams[i].sequence
            payload := Vector.replicate 24 0 } } }) ∧
      (∀ (b : Block) (rest : List Block), s.map[k] = .mine i c false → s.streams[i].queue = b :: rest →
        exec (.slotOccurrenceBegin k) s = .next { s with
          reports := Reports.empty, timeline := nextDue t (.slotEnd k)
          streams := s.streams.set i { s.streams[i] with queue := rest }
          inTransit := some { stream := i, slot := k, block := b, disposal := .returnToQueue }
          tx := some { stage := .handedOver, frame := .slot {
            mark := .data, owner := s.config.address, tag := s.streams[i].tag, sequence := s.streams[i].sequence
            payload := b.data } } }) ∧
      (s.map[k] = .mine i c false → s.streams[i].queue = [] →
        exec (.slotOccurrenceBegin k) s = .next { s with
          reports := Reports.empty, timeline := nextDue t (.slotEnd k)
          streams := s.streams.set i { s.streams[i] with underruns := bump s.streams[i].underruns }
          tx := some { stage := .handedOver, frame := .slot {
            mark := .fill, owner := s.config.address, tag := s.streams[i].tag, sequence := s.streams[i].sequence
            payload := Vector.replicate 24 0 } } })) ∧
    ((∀ (l : LaneNo) (i : StreamNo), s.map[k] ≠ .probe l i) →
      (∀ (i : StreamNo) (c : Nat) (f : Bool), s.map[k] ≠ .mine i c f) →
      exec (.slotOccurrenceBegin k) s = .next { s with
        reports := Reports.empty, timeline := nextDue t (.slotEnd k) })

/-- The end of an occurrence that was heard and was not CLEAN, for an entry that is neither PROBE nor MINE (R15, R16,
R61, R62, R63, R66, R67): the entry alone takes its transition, the slot is active unless SILENT, and COLLIDED and
DAMAGED are counted. -/
def Obligations.HeardSlotWithoutFrameMovesItsEntry : Prop :=
  ∀ (s : State) (k : SlotNo) (t : Timeline), Due s (.slotEnd k) t → s.tx = none → s.map[k].owned = false →
    (s.slotClass t k = .silent →
      exec (.slotOccurrenceEnd k) s = .next { s with
        reports := Reports.empty, timeline := nextDue t (Boundary.afterSlot k)
        map := s.map.set k (match s.map[k] with
          | .unknown n => if n + 1 < 6 then .unknown (n + 1) else .free
          | .held holder n => if n + 1 < 6 then .held holder (n + 1) else .free
          | .cooling n => if 1 < n then .cooling (n - 1) else .free
          | e => e) }) ∧
    (s.slotClass t k = .collided →
      exec (.slotOccurrenceEnd k) s = .next { s with
        reports := Reports.empty, timeline := nextDue t (Boundary.afterSlot k)
        activityCurrent := s.activityCurrent.set k true
        counters := { s.counters with collidedSlots := bump s.counters.collidedSlots }
        map := s.map.set k (.held none 0) }) ∧
    (s.slotClass t k = .damaged →
      exec (.slotOccurrenceEnd k) s = .next { s with
        reports := Reports.empty, timeline := nextDue t (Boundary.afterSlot k)
        activityCurrent := s.activityCurrent.set k true
        counters := { s.counters with damagedSlots := bump s.counters.damagedSlots }
        map := s.map.set k (match s.map[k] with
          | .held holder _ => .held holder 0
          | _ => .held none 0) })

/-- The end of a CLEAN occurrence, for an entry that is neither PROBE nor MINE (R64, R65, R70, R129 to R135): FINAL
makes the entry COOLING(4) and any other mark HELD by the frame's owner and tag; the station's own address as owner
raises the clash once a session; and a used subscription entry of that owner and tag takes the frame by its mark:
presence for CLAIM and FILL, a block stored in a buffer of the free list or dropped for DATA with SUB_ACTIVE from any
state but ACTIVE, ENDED for FINAL. That ADDRESS_CLASH stands before SUB_ACTIVE or SUB_ENDED of one frame is deduced (log
entry 13), and which buffer is given is free (log entry 7). -/
def Obligations.CleanSlotFeedsMapAndSubscription : Prop :=
  ∀ (s : State) (k : SlotNo) (t : Timeline) (f : SlotFrame), Due s (.slotEnd k) t → s.tx = none →
    s.map[k].owned = false → s.slotClass t k = .clean f →
    ∀ u : State, u = { s with
        reports := Reports.empty, timeline := nextDue t (Boundary.afterSlot k)
        activityCurrent := s.activityCurrent.set k true
        map := s.map.set k (if f.mark = .final then .cooling 4 else .held (some (f.owner, f.tag)) 0)
        sessionFlag := s.sessionFlag || f.owner == s.config.address
        events := if f.owner = s.config.address ∧ s.sessionFlag = false then
            enqueueEvent s.events { event := .addressClash, cycle := some t.cycle }
          else s.events } →
      ((∀ e : EntryNo, s.subs[e].state ≠ .idle → ¬ (s.subs[e].source = f.owner ∧ s.subs[e].tag = f.tag)) →
        exec (.slotOccurrenceEnd k) s = .next u) ∧
      (∀ e : EntryNo, SubsLegal s → s.subs[e].state ≠ .idle → s.subs[e].source = f.owner → s.subs[e].tag = f.tag →
        (f.mark = .claim ∨ f.mark = .fill →
          exec (.slotOccurrenceEnd k) s = .next { u with
            subs := s.subs.set e { s.subs[e] with presence := true } }) ∧
        (f.mark = .final →
          exec (.slotOccurrenceEnd k) s = .next (if s.subs[e].state = .ended then u else { u with
            subs := s.subs.set e { s.subs[e] with state := .ended, expected := none, quietCount := 0 }
            events := enqueueEvent u.events { event := .subEnded e k, cycle := some t.cycle } })) ∧
        (f.mark = .data → s.subs[e].queue.length < 16 → 0 < s.freeBuffers →
          ∃ b ∈ s.freeList, exec (.slotOccurrenceEnd k) s = .next { u with
            freeList := s.freeList.erase b, choices := s.choices + 1
            subs := s.subs.set e { s.subs[e] with
              state := .active, presence := true
              quietCount := if s.subs[e].state = .active then s.subs[e].quietCount else 0
              queue := s.subs[e].queue ++ [{
                buffer := b, entry := e, source := f.owner, tag := f.tag, cycle := t.cycle, slot := k
                sequence := f.sequence
                gap := (match s.subs[e].expected with
                  | some x => f.sequence - x
                  | none => 0)
                payload := f.payload }]
              expected := some (f.sequence + 1), stored := bump s.subs[e].stored }
            events := if s.subs[e].state = .active then u.events
              else enqueueEvent u.events { event := .subActive e k, cycle := some t.cycle } }) ∧
        (f.mark = .data → 16 ≤ s.subs[e].queue.length ∨ s.freeBuffers = 0 →
          exec (.slotOccurrenceEnd k) s = .next { u with
            counters := { s.counters with receiveDrops := bump s.counters.receiveDrops }
            subs := s.subs.set e { s.subs[e] with
              state := .active, presence := true
              quietCount := if s.subs[e].state = .active then s.subs[e].quietCount else 0
              dropped := bump s.subs[e].dropped }
            events := if s.subs[e].state = .active then u.events
              else enqueueEvent u.events { event := .subActive e k, cycle := some t.cycle } }))

/-- The end of an occurrence in which the station sent DATA or FILL for a MINE entry, short of a release (R12, R112 to
R114): CLEAN clears the conflict count, and for DATA frees the buffer, advances the sequence and counts the block;
COLLIDED raises the conflict count from 0 to 1, and for DATA puts the block back at the head of its queue, or frees it
where the stream was closed. The two ends of the occurrence count as in it (log entry 5). -/
def Obligations.OwnDataAndFillOutcomes : Prop :=
  ∀ (s : State) (k : SlotNo) (t : Timeline) (x : Transmission) (f : SlotFrame) (i : StreamNo) (c : Nat) (p : Bool),
    Due s (.slotEnd k) t → s.tx = some x → x.stage ≠ .handedOver → x.frame = .slot f → s.map[k] = .mine i c p →
    ∀ collided : Bool,
      (collided = true ↔ (x.stage = .jamming ∨ ∃ j ∈ s.reports.jams,
        t.startedAt + 96000 + 18000 * k.val ≤ j ∧ j ≤ t.startedAt + 96000 + 18000 * k.val + 18000)) →
      ∀ u : State, u = { s with
          tx := none, reports := Reports.empty, timeline := nextDue t (Boundary.afterSlot k)
          activityCurrent := s.activityCurrent.set k true
          counters := { s.counters with
            collidedSlots := if collided then bump s.counters.collidedSlots else s.counters.collidedSlots }
          map := s.map.set k (.mine i (if collided then 1 else 0) p) } →
        (f.mark = .fill → collided = false ∨ c = 0 → exec (.slotOccurrenceEnd k) s = .next u) ∧
        (∀ b : InTransit, f.mark = .data → s.inTransit = some b → b.stream = i →
          (collided = false →
            exec (.slotOccurrenceEnd k) s = .next { u with
              inTransit := none, freeList := s.freeList ++ [b.block.buffer]
              streams := s.streams.set i { s.streams[i] with
                sequence := s.streams[i].sequence + 1, blocksSent := bump s.streams[i].blocksSent } }) ∧
          (collided = true → c = 0 → b.disposal = .returnToQueue →
            exec (.slotOccurrenceEnd k) s = .next { u with
              inTransit := none
              streams := s.streams.set i { s.streams[i] with queue := b.block :: s.streams[i].queue } }) ∧
          (collided = true → c = 0 → b.disposal = .freeBuffer →
            exec (.slotOccurrenceEnd k) s = .next { u with
              inTransit := none, freeList := s.freeList ++ [b.block.buffer] }))

/-- The second collision in a row releases an owned slot (R113, R115): the entry is HELD(absent), the slot leaves the
held list, the loss is counted and STREAM_LOST posted; a LIVE stream is CLAIMING again, and a CLOSING one that held no
other slot is IDLE with STREAM_CLOSED posted after it. A DATA block goes back to the head of its queue, or is freed where
the stream was closed. In LEAVING, where no other MINE entry is left, the station arrives in READY with
STATION_STATE(READY, LEFT) after these (R37). A jam report counts with both ends of the occurrence in it (log entry 5). -/
def Obligations.SecondCollisionReleasesTheSlot : Prop :=
  ∀ (s : State) (k : SlotNo) (t : Timeline) (x : Transmission) (f : SlotFrame) (i : StreamNo) (p : Bool),
    Due s (.slotEnd k) t → s.tx = some x → x.stage ≠ .handedOver → x.frame = .slot f →
    (x.stage = .jamming ∨ ∃ j ∈ s.reports.jams,
      t.startedAt + 96000 + 18000 * k.val ≤ j ∧ j ≤ t.startedAt + 96000 + 18000 * k.val + 18000) →
    s.map[k] = .mine i 1 p →
    s.streams[i].state = .claiming ∨ s.streams[i].state = .live ∨ s.streams[i].state = .closing →
    ∀ (closed : Bool) (r : Machine.Stream) (u w : State),
      (closed = true ↔ s.streams[i].state = .closing ∧ s.streams[i].held.erase k = []) →
      r = { s.streams[i] with
        state := if closed then .idle else if s.streams[i].state = .closing then .closing else .claiming
        held := s.streams[i].held.erase k, slotsLost := bump s.streams[i].slotsLost } →
      u = { s with
        tx := none, reports := Reports.empty, timeline := nextDue t (Boundary.afterSlot k)
        activityCurrent := s.activityCurrent.set k true
        counters := { s.counters with collidedSlots := bump s.counters.collidedSlots }
        map := s.map.set k (.held none 0), streams := s.streams.set i r
        events := eventsAfter s.events (.streamLost i k :: if closed then [.streamClosed i] else []) (some t.cycle) } →
      (f.mark = .fill ∧ w = u ∨
        ∃ b : InTransit, f.mark = .data ∧ s.inTransit = some b ∧ b.stream = i ∧
          (b.disposal = .returnToQueue ∧ w = { u with
              inTransit := none, streams := s.streams.set i { r with queue := b.block :: s.streams[i].queue } } ∨
            b.disposal = .freeBuffer ∧ w = { u with
              inTransit := none, freeList := s.freeList ++ [b.block.buffer] })) →
      ((s.station ≠ .leaving ∨ ∃ (m : SlotNo) (j : StreamNo) (d : Nat) (q : Bool), m ≠ k ∧ s.map[m] = .mine j d q) →
        exec (.slotOccurrenceEnd k) s = .next w) ∧
      (s.station = .leaving → (∀ (m : SlotNo) (j : StreamNo) (d : Nat) (q : Bool), m ≠ k → s.map[m] ≠ .mine j d q) →
        ∃ v : State, exec (.slotOccurrenceEnd k) s = .next v ∧ ArrivesLeft w v)

/-- After a FINAL, whatever its outcome (R118): the entry is COOLING(4), the slot leaves the held list, and a CLOSING
stream that held no other is IDLE with STREAM_CLOSED posted. In LEAVING, where no other MINE entry is left, the
station arrives in READY with STATION_STATE(READY, LEFT) after it (R37). A COLLIDED outcome is counted (R16); a jam report counts with both ends of
the occurrence in it (log entry 5). -/
def Obligations.FinalGivesTheSlotUp : Prop :=
  ∀ (s : State) (k : SlotNo) (t : Timeline) (x : Transmission) (f : SlotFrame) (i : StreamNo) (c : Nat) (p : Bool),
    Due s (.slotEnd k) t → s.tx = some x → x.stage ≠ .handedOver → x.frame = .slot f → f.mark = .final →
    s.map[k] = .mine i c p → s.streams[i].state = .closing →
    ∀ collided : Bool,
      (collided = true ↔ (x.stage = .jamming ∨ ∃ j ∈ s.reports.jams,
        t.startedAt + 96000 + 18000 * k.val ≤ j ∧ j ≤ t.startedAt + 96000 + 18000 * k.val + 18000)) →
    ∃ u v : State, u = { s with
        tx := none, reports := Reports.empty, timeline := nextDue t (Boundary.afterSlot k)
        activityCurrent := s.activityCurrent.set k true
        counters := { s.counters with
          collidedSlots := if collided then bump s.counters.collidedSlots else s.counters.collidedSlots }
        map := s.map.set k (.cooling 4)
        streams := s.streams.set i { s.streams[i] with
          held := s.streams[i].held.erase k
          state := if s.streams[i].held.erase k = [] then .idle else .closing }
        events := if s.streams[i].held.erase k = [] then
            enqueueEvent s.events { event := .streamClosed i, cycle := some t.cycle }
          else s.events } ∧
      exec (.slotOccurrenceEnd k) s = .next v ∧
      ((s.station ≠ .leaving ∨ ∃ (m : SlotNo) (j : StreamNo) (d : Nat) (q : Bool), m ≠ k ∧ s.map[m] = .mine j d q) →
        v = u) ∧
      (s.station = .leaving → (∀ (m : SlotNo) (j : StreamNo) (d : Nat) (q : Bool), m ≠ k → s.map[m] ≠ .mine j d q) →
        ArrivesLeft u v)

/-- The outcome of a CLAIM that a lane is waiting for (R92 to R94): CLEAN raises the clean count, and the third one
wins the slot: the entry is MINE, the slot joins the held list, the lane is idle and the attempts 0, and a stream that
then holds what it wants is LIVE with STREAM_LIVE posted; COLLIDED short of the tenth attempt makes the entry
HELD(absent), idles the lane, raises the attempts and draws a backoff below 2 to the power of the attempts, at most
32. A jam report counts with both ends of the occurrence in it (log entry 5). -/
def Obligations.ClaimOutcomeMovesTheProbe : Prop :=
  ∀ (s : State) (k : SlotNo) (t : Timeline) (x : Transmission) (f : SlotFrame) (l : LaneNo) (r : Lane),
    Legal s → Due s (.slotEnd k) t → s.station = .active → s.tx = some x → x.stage ≠ .handedOver →
    x.frame = .slot f → f.mark = .claim → s.lanes[l] = some r → r.slot = k →
    ∀ collided : Bool,
      (collided = true ↔ (x.stage = .jamming ∨ ∃ j ∈ s.reports.jams,
        t.startedAt + 96000 + 18000 * k.val ≤ j ∧ j ≤ t.startedAt + 96000 + 18000 * k.val + 18000)) →
      ∀ u : State, u = { s with
          tx := none, reports := Reports.empty, timeline := nextDue t (Boundary.afterSlot k)
          activityCurrent := s.activityCurrent.set k true
          counters := { s.counters with
            collidedSlots := if collided then bump s.counters.collidedSlots else s.counters.collidedSlots } } →
        (collided = false → r.cleanCount < 2 →
          exec (.slotOccurrenceEnd k) s = .next { u with
            lanes := s.lanes.set l (some { r with cleanCount := r.cleanCount + 1 }) }) ∧
        (collided = false → r.cleanCount = 2 →
          exec (.slotOccurrenceEnd k) s = .next { u with
            lanes := s.lanes.set l none
            map := s.map.set k (.mine r.stream 0 false)
            streams := s.streams.set r.stream { s.streams[r.stream] with
              held := s.streams[r.stream].held ++ [k], attempts := 0
              state := if s.streams[r.stream].held.length + 1 = s.streams[r.stream].wanted then .live else .claiming
              shortPosted := if s.streams[r.stream].held.length + 1 = s.streams[r.stream].wanted then false
                else s.streams[r.stream].shortPosted }
            events := if s.streams[r.stream].held.length + 1 = s.streams[r.stream].wanted then
                enqueueEvent s.events { event := .streamLive r.stream k, cycle := some t.cycle }
              else s.events }) ∧
        (collided = true → s.streams[r.stream].attempts < 9 →
          ∃ d : Nat, d < 2 ^ min (s.streams[r.stream].attempts + 1) 5 ∧
            exec (.slotOccurrenceEnd k) s = .next { u with
              lanes := s.lanes.set l none
              map := s.map.set k (.held none 0)
              draws := s.draws + 1
              streams := s.streams.set r.stream { s.streams[r.stream] with
                attempts := s.streams[r.stream].attempts + 1, backoff := d } })

/-- The tenth collided probe in a row (R95): a stream that holds no slot is FAILED with CONTENTION, its claim fields
clear, and STREAM_FAILED posted; a stream that holds slots stays CLAIMING with attempts 0 and its backoff drawn from 0
to 31, and STREAM_SHORT is posted unless it has been. The outcome of a CLAIM that no lane is waiting for, CLEAN or
COLLIDED, changes no claim (R97); in LEAVING with no MINE entry the station then arrives in READY (R37). A jam report
counts with both ends of the occurrence in it (log entry 5). -/
def Obligations.AttemptLimitAndDiscardedClaims : Prop :=
  ∀ (s : State) (k : SlotNo) (t : Timeline) (x : Transmission) (f : SlotFrame),
    Legal s → Due s (.slotEnd k) t → s.tx = some x → x.stage ≠ .handedOver → x.frame = .slot f → f.mark = .claim →
    ∀ collided : Bool,
      (collided = true ↔ (x.stage = .jamming ∨ ∃ j ∈ s.reports.jams,
        t.startedAt + 96000 + 18000 * k.val ≤ j ∧ j ≤ t.startedAt + 96000 + 18000 * k.val + 18000)) →
      ∀ u : State, u = { s with
          tx := none, reports := Reports.empty, timeline := nextDue t (Boundary.afterSlot k)
          activityCurrent := s.activityCurrent.set k true
          counters := { s.counters with
            collidedSlots := if collided then bump s.counters.collidedSlots else s.counters.collidedSlots } } →
        (∀ (l : LaneNo) (r : Lane), collided = true → s.lanes[l] = some r → r.slot = k →
          s.streams[r.stream].attempts = 9 →
          ∃ d : Nat, d < 32 ∧ exec (.slotOccurrenceEnd k) s = .next { u with
            lanes := s.lanes.set l none, map := s.map.set k (.held none 0), draws := s.draws + 1
            streams := s.streams.set r.stream
              (if s.streams[r.stream].held = [] then { s.streams[r.stream] with
                state := .failed, attempts := 0, backoff := 0, deferral := 0, shortPosted := false
                failure := some .contention }
              else { s.streams[r.stream] with attempts := 0, backoff := d, shortPosted := true })
            events := if s.streams[r.stream].held = [] then
                enqueueEvent s.events { event := .streamFailed r.stream .contention, cycle := some t.cycle }
              else if s.streams[r.stream].shortPosted = true then s.events
              else enqueueEvent s.events { event := .streamShort r.stream .contention, cycle := some t.cycle } }) ∧
        ((∀ (l : LaneNo) (r : Lane), s.lanes[l] = some r → r.slot ≠ k) →
          ((s.station ≠ .leaving ∨ ∃ (m : SlotNo) (j : StreamNo) (d : Nat) (q : Bool), s.map[m] = .mine j d q) →
            exec (.slotOccurrenceEnd k) s = .next u) ∧
          (s.station = .leaving → (∀ (m : SlotNo) (j : StreamNo) (d : Nat) (q : Bool), s.map[m] ≠ .mine j d q) →
            ∃ v : State, exec (.slotOccurrenceEnd k) s = .next v ∧ ArrivesLeft u v))

/-! ## The cycle end -/

/-- The cycle end of a station that keeps its timeline in its state (R29, R30, R136): a beaconed cycle leaves the
holdover count and an unbeaconed one raises it; the settle count falls by one in SETTLE; every ACTIVE subscription
without presence counts quiet and goes STALE at the sixth, SUB_STALE posted in ascending entry number; and every
presence flag is cleared. The count of free choices is the model's own (log entry 4). -/
def Obligations.CycleEndCountsQuietAndHoldover : Prop :=
  ∀ (s : State) (t : Timeline), Due s .cycleEnd t → (s.station = .settle → 1 < s.settle) →
    (s.beaconHeard = true ∨ s.holdover < 7) →
    ∃ u : State, exec .cycleEnd s = .next u ∧
      u = { s with
        timeline := nextDue t .cycleStart, choices := s.choices + 1, subs := u.subs
        holdover := if s.beaconHeard = true then s.holdover else s.holdover + 1
        settle := if s.station = .settle then s.settle - 1 else s.settle
        events := eventsAfter s.events (((List.finRange 16).filter fun e =>
          s.subs[e].state == .active && !s.subs[e].presence && decide (5 ≤ s.subs[e].quietCount)).map .subStale)
            (some t.cycle) } ∧
      ∀ e : EntryNo, u.subs[e] =
        if s.subs[e].state = .active ∧ s.subs[e].presence = false then
          if s.subs[e].quietCount < 5 then { s.subs[e] with quietCount := s.subs[e].quietCount + 1 }
          else { s.subs[e] with state := .stale, quietCount := 0 }
        else { s.subs[e] with quietCount := 0, presence := false }

/-- The cycle end at which the settle count runs out (R29): the station is ACTIVE and STATION_STATE(ACTIVE, SETTLED)
carries the number of the cycle now ending; it stands before or after the SUB_STALE events of the same cycle end,
which R155 leaves open; the subscriptions count quiet in either order (R136). The choice between the two is free (log
entry 4). -/
def Obligations.SettleCountRunsOutIntoActive : Prop :=
  ∀ (s : State) (t : Timeline), Due s .cycleEnd t → s.station = .settle → s.settle = 1 →
    (s.beaconHeard = true ∨ s.holdover < 7) →
    ∃ u : State, exec .cycleEnd s = .next u ∧
      u = { s with
        timeline := nextDue t .cycleStart, choices := s.choices + 1, subs := u.subs, events := u.events
        holdover := if s.beaconHeard = true then s.holdover else s.holdover + 1
        settle := 0, station := .active } ∧
      (∀ e : EntryNo, u.subs[e] =
        if s.subs[e].state = .active ∧ s.subs[e].presence = false then
          if s.subs[e].quietCount < 5 then { s.subs[e] with quietCount := s.subs[e].quietCount + 1 }
          else { s.subs[e] with state := .stale, quietCount := 0 }
        else { s.subs[e] with quietCount := 0, presence := false }) ∧
      ∀ stale : List Event,
        stale = ((List.finRange 16).filter fun e =>
          s.subs[e].state == .active && !s.subs[e].presence && decide (5 ≤ s.subs[e].quietCount)).map .subStale →
        u.events = eventsAfter s.events (stale ++ [.stationState .active .settled]) (some t.cycle) ∨
        u.events = eventsAfter s.events (.stationState .active .settled :: stale) (some t.cycle)

/-- The eighth unbeaconed cycle end in a row loses synchronization (R31, R32, R38): from SETTLE or ACTIVE the station
is in LISTEN with a new wait, and from LEAVING in READY, off the timeline, with the map cleared and the claim engine
empty; CLAIMING and LIVE streams are CLAIMING with their queues kept, CLOSING ones IDLE; used subscriptions wait
again; and STATION_STATE(HOLDOVER) is posted before the STREAM_CLOSED events, after any SUB_STALE of the same cycle
end. Whether the SUB_STALE events are posted is free (log entry 4). On entering LISTEN the receiver abandons a frame under
way at the cycle end (R17, log entry 17). -/
def Obligations.EighthUnbeaconedCycleLosesSynchronization : Prop :=
  ∀ (s : State) (t : Timeline), Legal s → Due s .cycleEnd t → s.beaconHeard = false → s.holdover = 7 →
    ∃ u : State, exec .cycleEnd s = .next u ∧
      u = { s with
        station := if s.station = .leaving then .ready else .listen
        timeline := none, holdover := 0, settle := 0, drawnPosition := none, tx := none
        reports := Reports.empty, claimQueue := [], choices := s.choices + 1
        sessionFlag := if s.station = .leaving then false else s.sessionFlag
        receiver := if s.station = .leaving then s.receiver else .restarted (t.startedAt + 960000)
        listenTimer := u.listenTimer, draws := u.draws, lanes := u.lanes, map := u.map, streams := u.streams
        subs := u.subs, events := u.events } ∧
      (s.station = .leaving → u.listenTimer = .stopped ∧ u.draws = s.draws) ∧
      (s.station ≠ .leaving → u.draws = s.draws + 1 ∧ ∃ d : Nat, d ≤ 7 ∧
        u.listenTimer = if s.carrier.isSome then .held (3000 + 1000 * d) else .counting (3000 + 1000 * d)) ∧
      (∀ l : LaneNo, u.lanes[l] = none) ∧ (∀ k : SlotNo, u.map[k] = .unknown 0) ∧
      (∀ i : StreamNo, u.streams[i] =
        match s.streams[i].state with
        | .claiming | .live => { s.streams[i] with
            state := .claiming, held := [], attempts := 0, backoff := 0, deferral := 0, shortPosted := false }
        | .closing => { s.streams[i] with state := .idle, held := [] }
        | .idle | .failed => s.streams[i]) ∧
      (∀ e : EntryNo, u.subs[e] = if s.subs[e].state = .idle then s.subs[e] else
        { s.subs[e] with state := .waiting, expected := none, quietCount := 0, presence := false }) ∧
      ∀ (stale closed : List Event),
        stale = ((List.finRange 16).filter fun e =>
          s.subs[e].state == .active && !s.subs[e].presence && decide (5 ≤ s.subs[e].quietCount)).map .subStale →
        closed = .stationState u.station .holdover ::
          ((List.finRange 8).filter fun i => s.streams[i].state == .closing).map .streamClosed →
        u.events = eventsAfter s.events closed none ∨
        u.events = eventsAfter (eventsAfter s.events stale (some t.cycle)) closed none

/-! ## What the line reports -/

/-- The carrier reports (R7, R25, R174): the first one on a quiet pair holds a counting listen timer; the end restarts
the timer with a new draw in LISTEN, and on a timeline leaves the stretch of carrier, to its last level change 0.2 µs
before the report, for the class of the division. The stretch's end is the model's reading of R8 and R174, and that the
level is followed in UNCONFIGURED and READY too is deduced (log entry 5); that a start report on a pair that carries and
an end report on a quiet pair change nothing is the model's choice (log entry 9), and so is that an end report in LISTEN
bounds the moment of a START within the stretch (log entry 17). -/
def Obligations.CarrierReportsHoldAndRestart : Prop :=
  ∀ (s : State) (time since : Time),
    (s.carrier = some since → exec (.carrierStart time) s = .next s) ∧
    (s.carrier = none →
      (∀ n, s.station = .listen → s.listenTimer = .counting n →
        exec (.carrierStart time) s = .next { s with carrier := some time, listenTimer := .held n }) ∧
      ((s.station ≠ .listen ∨ ∀ n, s.listenTimer ≠ .counting n) →
        exec (.carrierStart time) s = .next { s with carrier := some time }) ∧
      exec (.carrierEnd time) s = .next s) ∧
    (s.carrier = some since →
      (s.station = .listen → ∃ d : Nat, d ≤ 7 ∧ exec (.carrierEnd time) s = .next { s with
        carrier := none, draws := s.draws + 1, listenTimer := .counting (3000 + 1000 * d)
        receiver := heardBy s.receiver time }) ∧
      (s.station.onTimeline = true → exec (.carrierEnd time) s = .next { s with
        carrier := none
        reports := { s.reports with stretches := s.reports.stretches ++ [{ begins := since, ends := time - 200 }] } }) ∧
      (s.station = .unconfigured ∨ s.station = .ready →
        exec (.carrierEnd time) s = .next { s with carrier := none }))

/-- A clean beacon in LISTEN is adopted (R28, R53): the station is in SETTLE on the beacon's timeline, its cycle start
placed 12 × p + 1 µs before the beacon's first bit, with settle count 8, the flag set, the activity cleared, the
summary merged, and STATION_STATE(SETTLE, ADOPT) posted before any ADDRESS_CLASH; the receiver starts afresh at the
beacon's last bit. A second clean beacon that ended by then is not missed, and is taken in SETTLE (R28). Any other frame
report in LISTEN, and one of a frame that was under way when the receiver started, only bounds the moment of a START
within a stretch of carrier (R17, log entry 17). A frame report with the receiver off, one of a missed frame on a timeline
and, in any station state, one whose start byte is not 5Ch or 3Ah after the preamble AAh (R174) change nothing. -/
def Obligations.CleanBeaconInListenIsAdopted : Prop :=
  ∀ (s : State) (pattern : Half) (bytes : List Byte) (firstBit lastBit : Time), s.resetHeld = false →
    (s.station = .unconfigured ∨ s.station = .ready →
      exec (.frameReport pattern bytes firstBit lastBit) s = .next s) ∧
    (pattern ≠ 0xAA5C → pattern ≠ 0xAA3A → exec (.frameReport pattern bytes firstBit lastBit) s = .next s) ∧
    (s.station ≠ .listen → Missed s.receiver firstBit lastBit →
      exec (.frameReport pattern bytes firstBit lastBit) s = .next s) ∧
    (s.station = .listen → s.tx = none → pattern = 0xAA5C ∨ pattern = 0xAA3A →
      (Missed s.receiver firstBit lastBit ∨ ∀ b : BeaconFrame, Frame.parse pattern bytes ≠ some (.beacon b)) →
      exec (.frameReport pattern bytes firstBit lastBit) s =
        .next { s with receiver := heardBy s.receiver lastBit }) ∧
    (∀ b : BeaconFrame, s.station = .listen → s.tx = none → ¬ Missed s.receiver firstBit lastBit →
      Frame.parse pattern bytes = some (.beacon b) →
      ∃ u : State, exec (.frameReport pattern bytes firstBit lastBit) s = .next u ∧
        u = { s with
          station := .settle, receiver := .restarted lastBit, holdover := 0, settle := 8, listenTimer := .stopped
          drawnPosition := none, beaconHeard := true, activityCurrent := noSlots, activityPrevious := noSlots, reports := Reports.empty
          timeline := some { founder := b.founder, cycle := b.cycle
                             startedAt := firstBit - (12000 * b.position.val + 1000)
                             nextBoundary := Boundary.afterPosition b.position }
          counters := { s.counters with cleanBeacons := bump s.counters.cleanBeacons }
          map := u.map, sessionFlag := s.sessionFlag || b.sender == s.config.address
          events := eventsAfter s.events (.stationState .settle .adopt ::
            (if b.sender = s.config.address ∧ s.sessionFlag = false then [.addressClash] else [])) (some b.cycle) } ∧
        ∀ k : SlotNo, u.map[k] =
          if b.occupancy[k] = true then
            match s.map[k] with
            | .unknown _ => .held none 0
            | .free => .held none 0
            | e => e
          else s.map[k])

/-- On a timeline, a frame report of the division in progress is gathered, and while the station's own frame is on the
pair it is not acted on; a foreign beacon of a higher founder is counted and checked for an address clash (R7, R54).
That nothing heard while transmitting is acted on is deduced (log entry 6). -/
def Obligations.FrameReportsOnATimeline : Prop :=
  ∀ (s : State) (pattern : Half) (bytes : List Byte) (firstBit lastBit : Time) (t : Timeline) (u : State),
    s.resetHeld = false → s.station.onTimeline = true → s.timeline = some t → pattern = 0xAA5C ∨ pattern = 0xAA3A →
    ¬ Missed s.receiver firstBit lastBit →
    u = { s with reports := { s.reports with
      frames := s.reports.frames ++
        [{ frame := Frame.parse pattern bytes, firstBit := firstBit, lastBit := lastBit }] } } →
    ((∃ x, s.tx = some x ∧ x.stage ≠ .handedOver) →
      exec (.frameReport pattern bytes firstBit lastBit) s = .next s) ∧
    ((∀ x, s.tx = some x → x.stage = .handedOver) →
      ((∀ b : BeaconFrame, Frame.parse pattern bytes = some (.beacon b) → b.founder = t.founder) →
        exec (.frameReport pattern bytes firstBit lastBit) s = .next u) ∧
      (∀ b : BeaconFrame, Frame.parse pattern bytes = some (.beacon b) → t.founder < b.founder →
        exec (.frameReport pattern bytes firstBit lastBit) s = .next { u with
          counters := { s.counters with foreignIgnored := bump s.counters.foreignIgnored }
          sessionFlag := s.sessionFlag || b.sender == s.config.address
          events := if b.sender = s.config.address ∧ s.sessionFlag = false then
              enqueueEvent s.events { event := .addressClash, cycle := some t.cycle }
            else s.events }))

/-- A foreign beacon of a lower founder decides a merge (R33, R38, R54, R55): from SETTLE or ACTIVE the station is in
SETTLE on the new timeline, its slots and probes dropped and its map holding the summary alone; a frame handed over
and not yet started is discarded and its block settled by its disposal; from LEAVING the station is in READY. -/
def Obligations.LowerFounderMerges : Prop :=
  ∀ (s : State) (pattern : Half) (bytes : List Byte) (firstBit lastBit : Time) (t : Timeline) (b : BeaconFrame),
    Legal s → s.resetHeld = false → s.timeline = some t → (∀ x, s.tx = some x → x.stage = .handedOver) →
    ¬ Missed s.receiver firstBit lastBit →
    Frame.parse pattern bytes = some (.beacon b) → b.founder < t.founder →
    ∃ u : State, exec (.frameReport pattern bytes firstBit lastBit) s = .next u ∧
      u = { s with
        station := u.station, timeline := u.timeline, holdover := 0, settle := u.settle, listenTimer := .stopped
        sessionFlag := u.sessionFlag, counters := u.counters, drawnPosition := none, beaconHeard := u.beaconHeard
        activityCurrent := u.activityCurrent, activityPrevious := u.activityPrevious, reports := Reports.empty
        tx := none, map := u.map, claimQueue := [], lanes := u.lanes, streams := u.streams, inTransit := none
        subs := u.subs, freeList := u.freeList, events := u.events } ∧
      (∀ l : LaneNo, u.lanes[l] = none) ∧
      (∀ e : EntryNo, u.subs[e] = if s.subs[e].state = .idle then s.subs[e] else
        { s.subs[e] with state := .waiting, expected := none, quietCount := 0, presence := false }) ∧
      (∀ i : StreamNo, u.streams[i] =
        match s.streams[i].state with
        | .claiming | .live => { s.streams[i] with
            state := .claiming, held := [], attempts := 0, backoff := 0, deferral := 0, shortPosted := false
            queue := (match s.inTransit with
              | some d => if d.stream = i ∧ d.disposal = .returnToQueue then d.block :: s.streams[i].queue
                else s.streams[i].queue
              | none => s.streams[i].queue) }
        | .closing => { s.streams[i] with state := .idle, held := [] }
        | .idle | .failed => s.streams[i]) ∧
      u.freeList = s.freeList ++
        (match s.inTransit with
          | some d => if d.disposal = .freeBuffer then [d.block.buffer] else []
          | none => []) ∧
      (s.station ≠ .leaving →
        u.station = .settle ∧ u.settle = 8 ∧ u.beaconHeard = true ∧
        u.timeline = some { founder := b.founder, cycle := b.cycle
                            startedAt := firstBit - (12000 * b.position.val + 1000)
                            nextBoundary := Boundary.afterPosition b.position } ∧
        u.counters = { s.counters with cleanBeacons := bump s.counters.cleanBeacons } ∧
        u.activityCurrent = noSlots ∧ u.activityPrevious = noSlots ∧
        (∀ k : SlotNo, u.map[k] = if b.occupancy[k] = true then .held none 0 else .unknown 0) ∧
        u.sessionFlag = (s.sessionFlag || b.sender == s.config.address) ∧
        u.events = eventsAfter s.events (.stationState .settle .merge ::
          (((List.finRange 8).filter fun i => s.streams[i].state == .closing).map .streamClosed ++
            (if b.sender = s.config.address ∧ s.sessionFlag = false then [.addressClash] else []))) (some b.cycle)) ∧
      (s.station = .leaving →
        u.station = .ready ∧ u.timeline = none ∧ u.settle = 0 ∧ u.beaconHeard = false ∧
        u.activityCurrent = s.activityCurrent ∧ u.activityPrevious = s.activityPrevious ∧
        u.counters = s.counters ∧ u.sessionFlag = false ∧ (∀ k : SlotNo, u.map[k] = .unknown 0) ∧
        u.events = eventsAfter s.events (.stationState .ready .merge ::
          (((List.finRange 8).filter fun i => s.streams[i].state == .closing).map .streamClosed ++
            (if b.sender = s.config.address ∧ s.sessionFlag = false then [.addressClash] else []))) none)

/-- The lead-in starts a frame that was handed over (R6), a read-back mismatch turns a frame being sent into jam
(R11), and a jam report is gathered with its time on a timeline (R7); each does nothing else, but that a jam report in
LISTEN bounds the moment of a START within a stretch of carrier (log entry 17). LINE_EN is high from the
lead-in on, and LINE_TX carries the frame's levels and then silence, or jam: 1.5 bit times high and 1.5 low, over and over
(R174, R178). That a lead-in with no frame waiting and a mismatch with nothing being sent change nothing is the model's
choice (log entry 9), and so is that LINE_TX has no level while nothing is sent, before the lead-in and after the last bit
(log entry 16). -/
def Obligations.LeadInMismatchAndJam : Prop :=
  ∀ (s : State) (f : Frame) (time : Time), s.resetHeld = false →
    (s.tx = some { frame := f, stage := .handedOver } →
      exec .leadIn s = .next { s with tx := some { frame := f, stage := .sending } } ∧
      exec .readBackMismatch s = .next s) ∧
    (s.tx = some { frame := f, stage := .sending } →
      exec .leadIn s = .next s ∧
      exec .readBackMismatch s = .next { s with tx := some { frame := f, stage := .jamming } }) ∧
    (s.tx = some { frame := f, stage := .jamming } ∨ s.tx = none →
      exec .leadIn s = .next s ∧ exec .readBackMismatch s = .next s) ∧
    (s.tx = some { frame := f, stage := .sending } → s.lineEnable = true ∧ ∀ n : Nat, s.lineTx n = f.levels[n]?) ∧
    (s.tx = some { frame := f, stage := .jamming } →
      s.lineEnable = true ∧ ∀ n : Nat, s.lineTx n = some (decide (n % 6 < 3))) ∧
    (s.tx = some { frame := f, stage := .handedOver } ∨ s.tx = none →
      s.lineEnable = false ∧ ∀ n : Nat, s.lineTx n = none) ∧
    (s.station.onTimeline = true →
      exec (.jamReport time) s = .next { s with reports := { s.reports with jams := s.reports.jams ++ [time] } }) ∧
    (s.station = .listen → exec (.jamReport time) s = .next { s with receiver := heardBy s.receiver time }) ∧
    (s.station = .unconfigured ∨ s.station = .ready → exec (.jamReport time) s = .next s)

/-- The listen timer's expiry (R26, R27, R43): a founder-eligible station founds cycle 0 of a timeline named by its
own address, with every entry FREE, and is ACTIVE with a position drawn; another draws a new wait; a timer that is
stopped or held does not expire. That the expiry is taken whenever the timer counts is the model's choice (log entry
2). -/
def Obligations.ListenTimerExpiryFoundsOrWaits : Prop :=
  ∀ (s : State) (time : Time), s.resetHeld = false → Legal s →
    (∀ n, s.station = .listen → s.listenTimer = .counting n →
      (s.config.founderEligible = true → ∃ (p : Position) (u : State),
        exec (.listenTimerExpiry time) s = .next u ∧
        u = { s with
          station := .active, listenTimer := .stopped, holdover := 0, settle := 0
          timeline := some { founder := s.config.address, cycle := 0, startedAt := time
                             nextBoundary := .positionOpen 0 }
          activityCurrent := noSlots, activityPrevious := noSlots, reports := Reports.empty, map := u.map
          drawnPosition := some p, draws := s.draws + 1, beaconHeard := false
          events := enqueueEvent s.events { event := .stationState .active .found, cycle := some 0 } } ∧
        ∀ k : SlotNo, u.map[k] = .free) ∧
      (s.config.founderEligible = false → ∃ d : Nat, d ≤ 7 ∧
        exec (.listenTimerExpiry time) s = .next { s with
          draws := s.draws + 1, listenTimer := .counting (3000 + 1000 * d) })) ∧
    ((s.station ≠ .listen ∨ ∀ n, s.listenTimer ≠ .counting n) →
      exec (.listenTimerExpiry time) s = .next s)

/-! ## Whole-machine rules -/

/-- Every frame the part can send is received as it was sent: it opens with the start pattern of its kind, AA5Ch or
AA3Ah, and the report of the bytes after that is well formed and gives back each field (R4, R5, R174, R175). A slot frame
is 31 bytes and a beacon 14, so 248 and 112 bits. On the line each bit of each byte, the most significant first, is a
level and then its opposite, so no level is held for three halves of a bit time, as jam holds it (R174). -/
def Obligations.FrameReceivedAsSent : Prop :=
  (∀ f : SlotFrame, f.owner ≠ 0 → ∃ body : List Byte,
    Frame.wire (.slot f) = 0xAA :: 0x5C :: body ∧ body.length = 29 ∧ Frame.parse 0xAA5C body = some (.slot f)) ∧
  (∀ b : BeaconFrame, b.sender ≠ 0 → b.founder ≠ 0 → ∃ body : List Byte,
    Frame.wire (.beacon b) = 0xAA :: 0x3A :: body ∧ body.length = 12 ∧
      Frame.parse 0xAA3A body = some (.beacon b)) ∧
  ∀ f : Frame, f.levels.length = 16 * f.wire.length ∧
    (∀ (m j : Nat) (b : Byte), f.wire[m]? = some b → j < 8 →
      f.levels[16 * m + 2 * j]? = some (b.getMsbD j) ∧ f.levels[16 * m + 2 * j + 1]? = some (!b.getMsbD j)) ∧
    ∀ (n : Nat) (v : Bool), ¬ (f.levels[n]? = some v ∧ f.levels[n + 1]? = some v ∧ f.levels[n + 2]? = some v)

/-- The interrupt output is asserted, and the pin HINT low, exactly while the event queue holds a record (R159, R178).
Events are removed only by device reset and by READ_EVENT commits (R160): every other command keeps the records
that are in the queue, at its head and in their order. -/
def Obligations.EventsLeaveOnlyByCommitOrReset : Prop :=
  (∀ s : State, (s.interruptAsserted = true ↔ s.events ≠ []) ∧ (s.hint = false ↔ s.events ≠ [])) ∧
  ∀ (c : Instr) (s t : State), exec c s = .next t →
    s.events <+: t.events ∨ t.events = [] ∧ t.station = .unconfigured ∨
      (t.events = s.events.tail ∧ ∃ (x : Taken) (n : Nat), s.link = .response x n ∧ x.commit = some .eventQueue ∧
        x.response.length ≤ n + 1)

/-- Nothing but a device reset lowers a station counter (R16, R42). -/
def Obligations.CountersFallOnlyByReset : Prop :=
  ∀ (c : Instr) (s t : State), exec c s = .next t → t.station ≠ .unconfigured → CountersRise s.counters t.counters

/-- Every step keeps the law of the event queue (R154). -/
def Obligations.StepKeepsEventQueueLaw : Prop :=
  ∀ s t : State, EventsLegal s → step s = .next t → EventsLegal t

/-- Every step keeps the laws of the station state, the timeline record, the timer and the configuration (R19, R23,
R25, R42), and nothing is handed over or sent but in ACTIVE and LEAVING (R17). -/
def Obligations.StepKeepsStationLaws : Prop :=
  ∀ s t : State, StationLegal s → step s = .next t → StationLegal t

/-- Every step keeps the law of the claim queue and the lanes (R83). -/
def Obligations.StepKeepsClaimLaw : Prop :=
  ∀ s t : State, ClaimsLegal s → step s = .next t → ClaimsLegal t

/-- Every step keeps the laws of the subscription table (R125, R126): no two used entries share a pair, and no queue
is over 16 blocks. -/
def Obligations.StepKeepsSubscriptionLaws : Prop :=
  ∀ s t : State, SubsLegal s → step s = .next t → SubsLegal t

/-- Every step keeps the laws of the block pool: each buffer is in exactly one place, free, in a transmit queue, in
transit or in a receive queue (R143), and free buffers and blocks in all queues and in transit come to 192 (R144). -/
def Obligations.StepKeepsPoolLaw : Prop :=
  ∀ s t : State, PoolLegal s → step s = .next t → PoolLegal t

/-- Every step keeps the laws of the host link (R161, R168, R170): the response of a pending commit is the record that
the commit will take. -/
def Obligations.StepKeepsLinkLaws : Prop :=
  ∀ s t : State, LinkLegal s → step s = .next t → LinkLegal t

/-- Every step keeps every law of the part together: with those above, the states that the slot map admits in each
station state (R58, R59), so that no entry is UNKNOWN in ACTIVE or LEAVING, and the laws of the transmit streams (R84,
R105 to R107). An UNKNOWN entry in SETTLE has been SILENT at each end of its slot since the station entered SETTLE, and
six of these make it FREE (R62). -/
def Obligations.StepKeepsEveryLaw : Prop :=
  ∀ s t : State, Legal s → step s = .next t → Legal t
end

