-- ==== Sys2Proof/Laws/State.lean ====
section
/-! SUPPORT. One lemma per field per update of the state: what the update leaves in the field. No later proof unfolds
a record update. -/

namespace Sys2Proof.Machine

/-! ### `State.setEntry` -/

@[simp] theorem State.setEntry_pending (s : State) (k : SlotNo) (e : MapEntry) :
    (s.setEntry k e).pending = s.pending := rfl
@[simp] theorem State.setEntry_resetHeld (s : State) (k : SlotNo) (e : MapEntry) :
    (s.setEntry k e).resetHeld = s.resetHeld := rfl
@[simp] theorem State.setEntry_selectLow (s : State) (k : SlotNo) (e : MapEntry) :
    (s.setEntry k e).selectLow = s.selectLow := rfl
@[simp] theorem State.setEntry_carrier (s : State) (k : SlotNo) (e : MapEntry) :
    (s.setEntry k e).carrier = s.carrier := rfl
@[simp] theorem State.setEntry_receiver (s : State) (k : SlotNo) (e : MapEntry) :
    (s.setEntry k e).receiver = s.receiver := rfl
@[simp] theorem State.setEntry_station (s : State) (k : SlotNo) (e : MapEntry) :
    (s.setEntry k e).station = s.station := rfl
@[simp] theorem State.setEntry_config (s : State) (k : SlotNo) (e : MapEntry) :
    (s.setEntry k e).config = s.config := rfl
@[simp] theorem State.setEntry_timeline (s : State) (k : SlotNo) (e : MapEntry) :
    (s.setEntry k e).timeline = s.timeline := rfl
@[simp] theorem State.setEntry_holdover (s : State) (k : SlotNo) (e : MapEntry) :
    (s.setEntry k e).holdover = s.holdover := rfl
@[simp] theorem State.setEntry_settle (s : State) (k : SlotNo) (e : MapEntry) :
    (s.setEntry k e).settle = s.settle := rfl
@[simp] theorem State.setEntry_listenTimer (s : State) (k : SlotNo) (e : MapEntry) :
    (s.setEntry k e).listenTimer = s.listenTimer := rfl
@[simp] theorem State.setEntry_sessionFlag (s : State) (k : SlotNo) (e : MapEntry) :
    (s.setEntry k e).sessionFlag = s.sessionFlag := rfl
@[simp] theorem State.setEntry_counters (s : State) (k : SlotNo) (e : MapEntry) :
    (s.setEntry k e).counters = s.counters := rfl
@[simp] theorem State.setEntry_draws (s : State) (k : SlotNo) (e : MapEntry) : (s.setEntry k e).draws = s.draws := rfl
@[simp] theorem State.setEntry_drawnPosition (s : State) (k : SlotNo) (e : MapEntry) :
    (s.setEntry k e).drawnPosition = s.drawnPosition := rfl
@[simp] theorem State.setEntry_beaconHeard (s : State) (k : SlotNo) (e : MapEntry) :
    (s.setEntry k e).beaconHeard = s.beaconHeard := rfl
@[simp] theorem State.setEntry_activityCurrent (s : State) (k : SlotNo) (e : MapEntry) :
    (s.setEntry k e).activityCurrent = s.activityCurrent := rfl
@[simp] theorem State.setEntry_activityPrevious (s : State) (k : SlotNo) (e : MapEntry) :
    (s.setEntry k e).activityPrevious = s.activityPrevious := rfl
@[simp] theorem State.setEntry_reports (s : State) (k : SlotNo) (e : MapEntry) :
    (s.setEntry k e).reports = s.reports := rfl
@[simp] theorem State.setEntry_tx (s : State) (k : SlotNo) (e : MapEntry) : (s.setEntry k e).tx = s.tx := rfl
@[simp] theorem State.setEntry_map (s : State) (k : SlotNo) (e : MapEntry) :
    (s.setEntry k e).map = s.map.set k e := rfl
@[simp] theorem State.setEntry_claimQueue (s : State) (k : SlotNo) (e : MapEntry) :
    (s.setEntry k e).claimQueue = s.claimQueue := rfl
@[simp] theorem State.setEntry_lanes (s : State) (k : SlotNo) (e : MapEntry) : (s.setEntry k e).lanes = s.lanes := rfl
@[simp] theorem State.setEntry_streams (s : State) (k : SlotNo) (e : MapEntry) :
    (s.setEntry k e).streams = s.streams := rfl
@[simp] theorem State.setEntry_inTransit (s : State) (k : SlotNo) (e : MapEntry) :
    (s.setEntry k e).inTransit = s.inTransit := rfl
@[simp] theorem State.setEntry_subs (s : State) (k : SlotNo) (e : MapEntry) : (s.setEntry k e).subs = s.subs := rfl
@[simp] theorem State.setEntry_freeList (s : State) (k : SlotNo) (e : MapEntry) :
    (s.setEntry k e).freeList = s.freeList := rfl
@[simp] theorem State.setEntry_events (s : State) (k : SlotNo) (e : MapEntry) :
    (s.setEntry k e).events = s.events := rfl
@[simp] theorem State.setEntry_link (s : State) (k : SlotNo) (e : MapEntry) : (s.setEntry k e).link = s.link := rfl
@[simp] theorem State.setEntry_choices (s : State) (k : SlotNo) (e : MapEntry) :
    (s.setEntry k e).choices = s.choices := rfl

/-! ### `State.mapEntries` -/

@[simp] theorem State.mapEntries_pending (s : State) (f : SlotNo → MapEntry → MapEntry) :
    (s.mapEntries f).pending = s.pending := by simp only [State.mapEntries]
@[simp] theorem State.mapEntries_resetHeld (s : State) (f : SlotNo → MapEntry → MapEntry) :
    (s.mapEntries f).resetHeld = s.resetHeld := by simp only [State.mapEntries]
@[simp] theorem State.mapEntries_selectLow (s : State) (f : SlotNo → MapEntry → MapEntry) :
    (s.mapEntries f).selectLow = s.selectLow := by simp only [State.mapEntries]
@[simp] theorem State.mapEntries_carrier (s : State) (f : SlotNo → MapEntry → MapEntry) :
    (s.mapEntries f).carrier = s.carrier := by simp only [State.mapEntries]
@[simp] theorem State.mapEntries_receiver (s : State) (f : SlotNo → MapEntry → MapEntry) :
    (s.mapEntries f).receiver = s.receiver := by simp only [State.mapEntries]
@[simp] theorem State.mapEntries_station (s : State) (f : SlotNo → MapEntry → MapEntry) :
    (s.mapEntries f).station = s.station := by simp only [State.mapEntries]
@[simp] theorem State.mapEntries_config (s : State) (f : SlotNo → MapEntry → MapEntry) :
    (s.mapEntries f).config = s.config := by simp only [State.mapEntries]
@[simp] theorem State.mapEntries_timeline (s : State) (f : SlotNo → MapEntry → MapEntry) :
    (s.mapEntries f).timeline = s.timeline := by simp only [State.mapEntries]
@[simp] theorem State.mapEntries_holdover (s : State) (f : SlotNo → MapEntry → MapEntry) :
    (s.mapEntries f).holdover = s.holdover := by simp only [State.mapEntries]
@[simp] theorem State.mapEntries_settle (s : State) (f : SlotNo → MapEntry → MapEntry) :
    (s.mapEntries f).settle = s.settle := by simp only [State.mapEntries]
@[simp] theorem State.mapEntries_listenTimer (s : State) (f : SlotNo → MapEntry → MapEntry) :
    (s.mapEntries f).listenTimer = s.listenTimer := by simp only [State.mapEntries]
@[simp] theorem State.mapEntries_sessionFlag (s : State) (f : SlotNo → MapEntry → MapEntry) :
    (s.mapEntries f).sessionFlag = s.sessionFlag := by simp only [State.mapEntries]
@[simp] theorem State.mapEntries_counters (s : State) (f : SlotNo → MapEntry → MapEntry) :
    (s.mapEntries f).counters = s.counters := by simp only [State.mapEntries]
@[simp] theorem State.mapEntries_draws (s : State) (f : SlotNo → MapEntry → MapEntry) :
    (s.mapEntries f).draws = s.draws := by simp only [State.mapEntries]
@[simp] theorem State.mapEntries_drawnPosition (s : State) (f : SlotNo → MapEntry → MapEntry) :
    (s.mapEntries f).drawnPosition = s.drawnPosition := by simp only [State.mapEntries]
@[simp] theorem State.mapEntries_beaconHeard (s : State) (f : SlotNo → MapEntry → MapEntry) :
    (s.mapEntries f).beaconHeard = s.beaconHeard := by simp only [State.mapEntries]
@[simp] theorem State.mapEntries_activityCurrent (s : State) (f : SlotNo → MapEntry → MapEntry) :
    (s.mapEntries f).activityCurrent = s.activityCurrent := by simp only [State.mapEntries]
@[simp] theorem State.mapEntries_activityPrevious (s : State) (f : SlotNo → MapEntry → MapEntry) :
    (s.mapEntries f).activityPrevious = s.activityPrevious := by simp only [State.mapEntries]
@[simp] theorem State.mapEntries_reports (s : State) (f : SlotNo → MapEntry → MapEntry) :
    (s.mapEntries f).reports = s.reports := by simp only [State.mapEntries]
@[simp] theorem State.mapEntries_tx (s : State) (f : SlotNo → MapEntry → MapEntry) : (s.mapEntries f).tx = s.tx :=
    by simp only [State.mapEntries]
@[simp] theorem State.mapEntries_map (s : State) (f : SlotNo → MapEntry → MapEntry) :
    (s.mapEntries f).map = Vector.ofFn fun k => f k s.map[k] := by simp only [State.mapEntries]
@[simp] theorem State.mapEntries_claimQueue (s : State) (f : SlotNo → MapEntry → MapEntry) :
    (s.mapEntries f).claimQueue = s.claimQueue := by simp only [State.mapEntries]
@[simp] theorem State.mapEntries_lanes (s : State) (f : SlotNo → MapEntry → MapEntry) :
    (s.mapEntries f).lanes = s.lanes := by simp only [State.mapEntries]
@[simp] theorem State.mapEntries_streams (s : State) (f : SlotNo → MapEntry → MapEntry) :
    (s.mapEntries f).streams = s.streams := by simp only [State.mapEntries]
@[simp] theorem State.mapEntries_inTransit (s : State) (f : SlotNo → MapEntry → MapEntry) :
    (s.mapEntries f).inTransit = s.inTransit := by simp only [State.mapEntries]
@[simp] theorem State.mapEntries_subs (s : State) (f : SlotNo → MapEntry → MapEntry) :
    (s.mapEntries f).subs = s.subs := by simp only [State.mapEntries]
@[simp] theorem State.mapEntries_freeList (s : State) (f : SlotNo → MapEntry → MapEntry) :
    (s.mapEntries f).freeList = s.freeList := by simp only [State.mapEntries]
@[simp] theorem State.mapEntries_events (s : State) (f : SlotNo → MapEntry → MapEntry) :
    (s.mapEntries f).events = s.events := by simp only [State.mapEntries]
@[simp] theorem State.mapEntries_link (s : State) (f : SlotNo → MapEntry → MapEntry) :
    (s.mapEntries f).link = s.link := by simp only [State.mapEntries]
@[simp] theorem State.mapEntries_choices (s : State) (f : SlotNo → MapEntry → MapEntry) :
    (s.mapEntries f).choices = s.choices := by simp only [State.mapEntries]

/-! ### `State.modStream` -/

@[simp] theorem State.modStream_pending (s : State) (i : StreamNo) (f : Stream → Stream) :
    (s.modStream i f).pending = s.pending := rfl
@[simp] theorem State.modStream_resetHeld (s : State) (i : StreamNo) (f : Stream → Stream) :
    (s.modStream i f).resetHeld = s.resetHeld := rfl
@[simp] theorem State.modStream_selectLow (s : State) (i : StreamNo) (f : Stream → Stream) :
    (s.modStream i f).selectLow = s.selectLow := rfl
@[simp] theorem State.modStream_carrier (s : State) (i : StreamNo) (f : Stream → Stream) :
    (s.modStream i f).carrier = s.carrier := rfl
@[simp] theorem State.modStream_receiver (s : State) (i : StreamNo) (f : Stream → Stream) :
    (s.modStream i f).receiver = s.receiver := rfl
@[simp] theorem State.modStream_station (s : State) (i : StreamNo) (f : Stream → Stream) :
    (s.modStream i f).station = s.station := rfl
@[simp] theorem State.modStream_config (s : State) (i : StreamNo) (f : Stream → Stream) :
    (s.modStream i f).config = s.config := rfl
@[simp] theorem State.modStream_timeline (s : State) (i : StreamNo) (f : Stream → Stream) :
    (s.modStream i f).timeline = s.timeline := rfl
@[simp] theorem State.modStream_holdover (s : State) (i : StreamNo) (f : Stream → Stream) :
    (s.modStream i f).holdover = s.holdover := rfl
@[simp] theorem State.modStream_settle (s : State) (i : StreamNo) (f : Stream → Stream) :
    (s.modStream i f).settle = s.settle := rfl
@[simp] theorem State.modStream_listenTimer (s : State) (i : StreamNo) (f : Stream → Stream) :
    (s.modStream i f).listenTimer = s.listenTimer := rfl
@[simp] theorem State.modStream_sessionFlag (s : State) (i : StreamNo) (f : Stream → Stream) :
    (s.modStream i f).sessionFlag = s.sessionFlag := rfl
@[simp] theorem State.modStream_counters (s : State) (i : StreamNo) (f : Stream → Stream) :
    (s.modStream i f).counters = s.counters := rfl
@[simp] theorem State.modStream_draws (s : State) (i : StreamNo) (f : Stream → Stream) :
    (s.modStream i f).draws = s.draws := rfl
@[simp] theorem State.modStream_drawnPosition (s : State) (i : StreamNo) (f : Stream → Stream) :
    (s.modStream i f).drawnPosition = s.drawnPosition := rfl
@[simp] theorem State.modStream_beaconHeard (s : State) (i : StreamNo) (f : Stream → Stream) :
    (s.modStream i f).beaconHeard = s.beaconHeard := rfl
@[simp] theorem State.modStream_activityCurrent (s : State) (i : StreamNo) (f : Stream → Stream) :
    (s.modStream i f).activityCurrent = s.activityCurrent := rfl
@[simp] theorem State.modStream_activityPrevious (s : State) (i : StreamNo) (f : Stream → Stream) :
    (s.modStream i f).activityPrevious = s.activityPrevious := rfl
@[simp] theorem State.modStream_reports (s : State) (i : StreamNo) (f : Stream → Stream) :
    (s.modStream i f).reports = s.reports := rfl
@[simp] theorem State.modStream_tx (s : State) (i : StreamNo) (f : Stream → Stream) :
    (s.modStream i f).tx = s.tx := rfl
@[simp] theorem State.modStream_map (s : State) (i : StreamNo) (f : Stream → Stream) :
    (s.modStream i f).map = s.map := rfl
@[simp] theorem State.modStream_claimQueue (s : State) (i : StreamNo) (f : Stream → Stream) :
    (s.modStream i f).claimQueue = s.claimQueue := rfl
@[simp] theorem State.modStream_lanes (s : State) (i : StreamNo) (f : Stream → Stream) :
    (s.modStream i f).lanes = s.lanes := rfl
@[simp] theorem State.modStream_streams (s : State) (i : StreamNo) (f : Stream → Stream) :
    (s.modStream i f).streams = s.streams.set i (f s.streams[i]) := rfl
@[simp] theorem State.modStream_inTransit (s : State) (i : StreamNo) (f : Stream → Stream) :
    (s.modStream i f).inTransit = s.inTransit := rfl
@[simp] theorem State.modStream_subs (s : State) (i : StreamNo) (f : Stream → Stream) :
    (s.modStream i f).subs = s.subs := rfl
@[simp] theorem State.modStream_freeList (s : State) (i : StreamNo) (f : Stream → Stream) :
    (s.modStream i f).freeList = s.freeList := rfl
@[simp] theorem State.modStream_events (s : State) (i : StreamNo) (f : Stream → Stream) :
    (s.modStream i f).events = s.events := rfl
@[simp] theorem State.modStream_link (s : State) (i : StreamNo) (f : Stream → Stream) :
    (s.modStream i f).link = s.link := rfl
@[simp] theorem State.modStream_choices (s : State) (i : StreamNo) (f : Stream → Stream) :
    (s.modStream i f).choices = s.choices := rfl

/-! ### `State.mapStreams` -/

@[simp] theorem State.mapStreams_pending (s : State) (f : StreamNo → Stream → Stream) :
    (s.mapStreams f).pending = s.pending := by simp only [State.mapStreams]
@[simp] theorem State.mapStreams_resetHeld (s : State) (f : StreamNo → Stream → Stream) :
    (s.mapStreams f).resetHeld = s.resetHeld := by simp only [State.mapStreams]
@[simp] theorem State.mapStreams_selectLow (s : State) (f : StreamNo → Stream → Stream) :
    (s.mapStreams f).selectLow = s.selectLow := by simp only [State.mapStreams]
@[simp] theorem State.mapStreams_carrier (s : State) (f : StreamNo → Stream → Stream) :
    (s.mapStreams f).carrier = s.carrier := by simp only [State.mapStreams]
@[simp] theorem State.mapStreams_receiver (s : State) (f : StreamNo → Stream → Stream) :
    (s.mapStreams f).receiver = s.receiver := by simp only [State.mapStreams]
@[simp] theorem State.mapStreams_station (s : State) (f : StreamNo → Stream → Stream) :
    (s.mapStreams f).station = s.station := by simp only [State.mapStreams]
@[simp] theorem State.mapStreams_config (s : State) (f : StreamNo → Stream → Stream) :
    (s.mapStreams f).config = s.config := by simp only [State.mapStreams]
@[simp] theorem State.mapStreams_timeline (s : State) (f : StreamNo → Stream → Stream) :
    (s.mapStreams f).timeline = s.timeline := by simp only [State.mapStreams]
@[simp] theorem State.mapStreams_holdover (s : State) (f : StreamNo → Stream → Stream) :
    (s.mapStreams f).holdover = s.holdover := by simp only [State.mapStreams]
@[simp] theorem State.mapStreams_settle (s : State) (f : StreamNo → Stream → Stream) :
    (s.mapStreams f).settle = s.settle := by simp only [State.mapStreams]
@[simp] theorem State.mapStreams_listenTimer (s : State) (f : StreamNo → Stream → Stream) :
    (s.mapStreams f).listenTimer = s.listenTimer := by simp only [State.mapStreams]
@[simp] theorem State.mapStreams_sessionFlag (s : State) (f : StreamNo → Stream → Stream) :
    (s.mapStreams f).sessionFlag = s.sessionFlag := by simp only [State.mapStreams]
@[simp] theorem State.mapStreams_counters (s : State) (f : StreamNo → Stream → Stream) :
    (s.mapStreams f).counters = s.counters := by simp only [State.mapStreams]
@[simp] theorem State.mapStreams_draws (s : State) (f : StreamNo → Stream → Stream) :
    (s.mapStreams f).draws = s.draws := by simp only [State.mapStreams]
@[simp] theorem State.mapStreams_drawnPosition (s : State) (f : StreamNo → Stream → Stream) :
    (s.mapStreams f).drawnPosition = s.drawnPosition := by simp only [State.mapStreams]
@[simp] theorem State.mapStreams_beaconHeard (s : State) (f : StreamNo → Stream → Stream) :
    (s.mapStreams f).beaconHeard = s.beaconHeard := by simp only [State.mapStreams]
@[simp] theorem State.mapStreams_activityCurrent (s : State) (f : StreamNo → Stream → Stream) :
    (s.mapStreams f).activityCurrent = s.activityCurrent := by simp only [State.mapStreams]
@[simp] theorem State.mapStreams_activityPrevious (s : State) (f : StreamNo → Stream → Stream) :
    (s.mapStreams f).activityPrevious = s.activityPrevious := by simp only [State.mapStreams]
@[simp] theorem State.mapStreams_reports (s : State) (f : StreamNo → Stream → Stream) :
    (s.mapStreams f).reports = s.reports := by simp only [State.mapStreams]
@[simp] theorem State.mapStreams_tx (s : State) (f : StreamNo → Stream → Stream) : (s.mapStreams f).tx = s.tx :=
    by simp only [State.mapStreams]
@[simp] theorem State.mapStreams_map (s : State) (f : StreamNo → Stream → Stream) :
    (s.mapStreams f).map = s.map := by simp only [State.mapStreams]
@[simp] theorem State.mapStreams_claimQueue (s : State) (f : StreamNo → Stream → Stream) :
    (s.mapStreams f).claimQueue = s.claimQueue := by simp only [State.mapStreams]
@[simp] theorem State.mapStreams_lanes (s : State) (f : StreamNo → Stream → Stream) :
    (s.mapStreams f).lanes = s.lanes := by simp only [State.mapStreams]
@[simp] theorem State.mapStreams_streams (s : State) (f : StreamNo → Stream → Stream) :
    (s.mapStreams f).streams = Vector.ofFn fun i => f i s.streams[i] := by simp only [State.mapStreams]
@[simp] theorem State.mapStreams_inTransit (s : State) (f : StreamNo → Stream → Stream) :
    (s.mapStreams f).inTransit = s.inTransit := by simp only [State.mapStreams]
@[simp] theorem State.mapStreams_subs (s : State) (f : StreamNo → Stream → Stream) :
    (s.mapStreams f).subs = s.subs := by simp only [State.mapStreams]
@[simp] theorem State.mapStreams_freeList (s : State) (f : StreamNo → Stream → Stream) :
    (s.mapStreams f).freeList = s.freeList := by simp only [State.mapStreams]
@[simp] theorem State.mapStreams_events (s : State) (f : StreamNo → Stream → Stream) :
    (s.mapStreams f).events = s.events := by simp only [State.mapStreams]
@[simp] theorem State.mapStreams_link (s : State) (f : StreamNo → Stream → Stream) :
    (s.mapStreams f).link = s.link := by simp only [State.mapStreams]
@[simp] theorem State.mapStreams_choices (s : State) (f : StreamNo → Stream → Stream) :
    (s.mapStreams f).choices = s.choices := by simp only [State.mapStreams]

/-! ### `State.modSub` -/

@[simp] theorem State.modSub_pending (s : State) (e : EntryNo) (f : Subscription → Subscription) :
    (s.modSub e f).pending = s.pending := rfl
@[simp] theorem State.modSub_resetHeld (s : State) (e : EntryNo) (f : Subscription → Subscription) :
    (s.modSub e f).resetHeld = s.resetHeld := rfl
@[simp] theorem State.modSub_selectLow (s : State) (e : EntryNo) (f : Subscription → Subscription) :
    (s.modSub e f).selectLow = s.selectLow := rfl
@[simp] theorem State.modSub_carrier (s : State) (e : EntryNo) (f : Subscription → Subscription) :
    (s.modSub e f).carrier = s.carrier := rfl
@[simp] theorem State.modSub_receiver (s : State) (e : EntryNo) (f : Subscription → Subscription) :
    (s.modSub e f).receiver = s.receiver := rfl
@[simp] theorem State.modSub_station (s : State) (e : EntryNo) (f : Subscription → Subscription) :
    (s.modSub e f).station = s.station := rfl
@[simp] theorem State.modSub_config (s : State) (e : EntryNo) (f : Subscription → Subscription) :
    (s.modSub e f).config = s.config := rfl
@[simp] theorem State.modSub_timeline (s : State) (e : EntryNo) (f : Subscription → Subscription) :
    (s.modSub e f).timeline = s.timeline := rfl
@[simp] theorem State.modSub_holdover (s : State) (e : EntryNo) (f : Subscription → Subscription) :
    (s.modSub e f).holdover = s.holdover := rfl
@[simp] theorem State.modSub_settle (s : State) (e : EntryNo) (f : Subscription → Subscription) :
    (s.modSub e f).settle = s.settle := rfl
@[simp] theorem State.modSub_listenTimer (s : State) (e : EntryNo) (f : Subscription → Subscription) :
    (s.modSub e f).listenTimer = s.listenTimer := rfl
@[simp] theorem State.modSub_sessionFlag (s : State) (e : EntryNo) (f : Subscription → Subscription) :
    (s.modSub e f).sessionFlag = s.sessionFlag := rfl
@[simp] theorem State.modSub_counters (s : State) (e : EntryNo) (f : Subscription → Subscription) :
    (s.modSub e f).counters = s.counters := rfl
@[simp] theorem State.modSub_draws (s : State) (e : EntryNo) (f : Subscription → Subscription) :
    (s.modSub e f).draws = s.draws := rfl
@[simp] theorem State.modSub_drawnPosition (s : State) (e : EntryNo) (f : Subscription → Subscription) :
    (s.modSub e f).drawnPosition = s.drawnPosition := rfl
@[simp] theorem State.modSub_beaconHeard (s : State) (e : EntryNo) (f : Subscription → Subscription) :
    (s.modSub e f).beaconHeard = s.beaconHeard := rfl
@[simp] theorem State.modSub_activityCurrent (s : State) (e : EntryNo) (f : Subscription → Subscription) :
    (s.modSub e f).activityCurrent = s.activityCurrent := rfl
@[simp] theorem State.modSub_activityPrevious (s : State) (e : EntryNo) (f : Subscription → Subscription) :
    (s.modSub e f).activityPrevious = s.activityPrevious := rfl
@[simp] theorem State.modSub_reports (s : State) (e : EntryNo) (f : Subscription → Subscription) :
    (s.modSub e f).reports = s.reports := rfl
@[simp] theorem State.modSub_tx (s : State) (e : EntryNo) (f : Subscription → Subscription) :
    (s.modSub e f).tx = s.tx := rfl
@[simp] theorem State.modSub_map (s : State) (e : EntryNo) (f : Subscription → Subscription) :
    (s.modSub e f).map = s.map := rfl
@[simp] theorem State.modSub_claimQueue (s : State) (e : EntryNo) (f : Subscription → Subscription) :
    (s.modSub e f).claimQueue = s.claimQueue := rfl
@[simp] theorem State.modSub_lanes (s : State) (e : EntryNo) (f : Subscription → Subscription) :
    (s.modSub e f).lanes = s.lanes := rfl
@[simp] theorem State.modSub_streams (s : State) (e : EntryNo) (f : Subscription → Subscription) :
    (s.modSub e f).streams = s.streams := rfl
@[simp] theorem State.modSub_inTransit (s : State) (e : EntryNo) (f : Subscription → Subscription) :
    (s.modSub e f).inTransit = s.inTransit := rfl
@[simp] theorem State.modSub_subs (s : State) (e : EntryNo) (f : Subscription → Subscription) :
    (s.modSub e f).subs = s.subs.set e (f s.subs[e]) := rfl
@[simp] theorem State.modSub_freeList (s : State) (e : EntryNo) (f : Subscription → Subscription) :
    (s.modSub e f).freeList = s.freeList := rfl
@[simp] theorem State.modSub_events (s : State) (e : EntryNo) (f : Subscription → Subscription) :
    (s.modSub e f).events = s.events := rfl
@[simp] theorem State.modSub_link (s : State) (e : EntryNo) (f : Subscription → Subscription) :
    (s.modSub e f).link = s.link := rfl
@[simp] theorem State.modSub_choices (s : State) (e : EntryNo) (f : Subscription → Subscription) :
    (s.modSub e f).choices = s.choices := rfl

/-! ### `State.mapSubs` -/

@[simp] theorem State.mapSubs_pending (s : State) (f : Subscription → Subscription) :
    (s.mapSubs f).pending = s.pending := by simp only [State.mapSubs]
@[simp] theorem State.mapSubs_resetHeld (s : State) (f : Subscription → Subscription) :
    (s.mapSubs f).resetHeld = s.resetHeld := by simp only [State.mapSubs]
@[simp] theorem State.mapSubs_selectLow (s : State) (f : Subscription → Subscription) :
    (s.mapSubs f).selectLow = s.selectLow := by simp only [State.mapSubs]
@[simp] theorem State.mapSubs_carrier (s : State) (f : Subscription → Subscription) :
    (s.mapSubs f).carrier = s.carrier := by simp only [State.mapSubs]
@[simp] theorem State.mapSubs_receiver (s : State) (f : Subscription → Subscription) :
    (s.mapSubs f).receiver = s.receiver := by simp only [State.mapSubs]
@[simp] theorem State.mapSubs_station (s : State) (f : Subscription → Subscription) :
    (s.mapSubs f).station = s.station := by simp only [State.mapSubs]
@[simp] theorem State.mapSubs_config (s : State) (f : Subscription → Subscription) :
    (s.mapSubs f).config = s.config := by simp only [State.mapSubs]
@[simp] theorem State.mapSubs_timeline (s : State) (f : Subscription → Subscription) :
    (s.mapSubs f).timeline = s.timeline := by simp only [State.mapSubs]
@[simp] theorem State.mapSubs_holdover (s : State) (f : Subscription → Subscription) :
    (s.mapSubs f).holdover = s.holdover := by simp only [State.mapSubs]
@[simp] theorem State.mapSubs_settle (s : State) (f : Subscription → Subscription) :
    (s.mapSubs f).settle = s.settle := by simp only [State.mapSubs]
@[simp] theorem State.mapSubs_listenTimer (s : State) (f : Subscription → Subscription) :
    (s.mapSubs f).listenTimer = s.listenTimer := by simp only [State.mapSubs]
@[simp] theorem State.mapSubs_sessionFlag (s : State) (f : Subscription → Subscription) :
    (s.mapSubs f).sessionFlag = s.sessionFlag := by simp only [State.mapSubs]
@[simp] theorem State.mapSubs_counters (s : State) (f : Subscription → Subscription) :
    (s.mapSubs f).counters = s.counters := by simp only [State.mapSubs]
@[simp] theorem State.mapSubs_draws (s : State) (f : Subscription → Subscription) :
    (s.mapSubs f).draws = s.draws := by simp only [State.mapSubs]
@[simp] theorem State.mapSubs_drawnPosition (s : State) (f : Subscription → Subscription) :
    (s.mapSubs f).drawnPosition = s.drawnPosition := by simp only [State.mapSubs]
@[simp] theorem State.mapSubs_beaconHeard (s : State) (f : Subscription → Subscription) :
    (s.mapSubs f).beaconHeard = s.beaconHeard := by simp only [State.mapSubs]
@[simp] theorem State.mapSubs_activityCurrent (s : State) (f : Subscription → Subscription) :
    (s.mapSubs f).activityCurrent = s.activityCurrent := by simp only [State.mapSubs]
@[simp] theorem State.mapSubs_activityPrevious (s : State) (f : Subscription → Subscription) :
    (s.mapSubs f).activityPrevious = s.activityPrevious := by simp only [State.mapSubs]
@[simp] theorem State.mapSubs_reports (s : State) (f : Subscription → Subscription) :
    (s.mapSubs f).reports = s.reports := by simp only [State.mapSubs]
@[simp] theorem State.mapSubs_tx (s : State) (f : Subscription → Subscription) : (s.mapSubs f).tx = s.tx :=
    by simp only [State.mapSubs]
@[simp] theorem State.mapSubs_map (s : State) (f : Subscription → Subscription) : (s.mapSubs f).map = s.map :=
    by simp only [State.mapSubs]
@[simp] theorem State.mapSubs_claimQueue (s : State) (f : Subscription → Subscription) :
    (s.mapSubs f).claimQueue = s.claimQueue := by simp only [State.mapSubs]
@[simp] theorem State.mapSubs_lanes (s : State) (f : Subscription → Subscription) :
    (s.mapSubs f).lanes = s.lanes := by simp only [State.mapSubs]
@[simp] theorem State.mapSubs_streams (s : State) (f : Subscription → Subscription) :
    (s.mapSubs f).streams = s.streams := by simp only [State.mapSubs]
@[simp] theorem State.mapSubs_inTransit (s : State) (f : Subscription → Subscription) :
    (s.mapSubs f).inTransit = s.inTransit := by simp only [State.mapSubs]
@[simp] theorem State.mapSubs_subs (s : State) (f : Subscription → Subscription) :
    (s.mapSubs f).subs = Vector.ofFn fun e => f s.subs[e] := by simp only [State.mapSubs]
@[simp] theorem State.mapSubs_freeList (s : State) (f : Subscription → Subscription) :
    (s.mapSubs f).freeList = s.freeList := by simp only [State.mapSubs]
@[simp] theorem State.mapSubs_events (s : State) (f : Subscription → Subscription) :
    (s.mapSubs f).events = s.events := by simp only [State.mapSubs]
@[simp] theorem State.mapSubs_link (s : State) (f : Subscription → Subscription) : (s.mapSubs f).link = s.link :=
    by simp only [State.mapSubs]
@[simp] theorem State.mapSubs_choices (s : State) (f : Subscription → Subscription) :
    (s.mapSubs f).choices = s.choices := by simp only [State.mapSubs]

/-! ### `State.setLane` -/

@[simp] theorem State.setLane_pending (s : State) (l : LaneNo) (r : Option Lane) :
    (s.setLane l r).pending = s.pending := rfl
@[simp] theorem State.setLane_resetHeld (s : State) (l : LaneNo) (r : Option Lane) :
    (s.setLane l r).resetHeld = s.resetHeld := rfl
@[simp] theorem State.setLane_selectLow (s : State) (l : LaneNo) (r : Option Lane) :
    (s.setLane l r).selectLow = s.selectLow := rfl
@[simp] theorem State.setLane_carrier (s : State) (l : LaneNo) (r : Option Lane) :
    (s.setLane l r).carrier = s.carrier := rfl
@[simp] theorem State.setLane_receiver (s : State) (l : LaneNo) (r : Option Lane) :
    (s.setLane l r).receiver = s.receiver := rfl
@[simp] theorem State.setLane_station (s : State) (l : LaneNo) (r : Option Lane) :
    (s.setLane l r).station = s.station := rfl
@[simp] theorem State.setLane_config (s : State) (l : LaneNo) (r : Option Lane) :
    (s.setLane l r).config = s.config := rfl
@[simp] theorem State.setLane_timeline (s : State) (l : LaneNo) (r : Option Lane) :
    (s.setLane l r).timeline = s.timeline := rfl
@[simp] theorem State.setLane_holdover (s : State) (l : LaneNo) (r : Option Lane) :
    (s.setLane l r).holdover = s.holdover := rfl
@[simp] theorem State.setLane_settle (s : State) (l : LaneNo) (r : Option Lane) :
    (s.setLane l r).settle = s.settle := rfl
@[simp] theorem State.setLane_listenTimer (s : State) (l : LaneNo) (r : Option Lane) :
    (s.setLane l r).listenTimer = s.listenTimer := rfl
@[simp] theorem State.setLane_sessionFlag (s : State) (l : LaneNo) (r : Option Lane) :
    (s.setLane l r).sessionFlag = s.sessionFlag := rfl
@[simp] theorem State.setLane_counters (s : State) (l : LaneNo) (r : Option Lane) :
    (s.setLane l r).counters = s.counters := rfl
@[simp] theorem State.setLane_draws (s : State) (l : LaneNo) (r : Option Lane) :
    (s.setLane l r).draws = s.draws := rfl
@[simp] theorem State.setLane_drawnPosition (s : State) (l : LaneNo) (r : Option Lane) :
    (s.setLane l r).drawnPosition = s.drawnPosition := rfl
@[simp] theorem State.setLane_beaconHeard (s : State) (l : LaneNo) (r : Option Lane) :
    (s.setLane l r).beaconHeard = s.beaconHeard := rfl
@[simp] theorem State.setLane_activityCurrent (s : State) (l : LaneNo) (r : Option Lane) :
    (s.setLane l r).activityCurrent = s.activityCurrent := rfl
@[simp] theorem State.setLane_activityPrevious (s : State) (l : LaneNo) (r : Option Lane) :
    (s.setLane l r).activityPrevious = s.activityPrevious := rfl
@[simp] theorem State.setLane_reports (s : State) (l : LaneNo) (r : Option Lane) :
    (s.setLane l r).reports = s.reports := rfl
@[simp] theorem State.setLane_tx (s : State) (l : LaneNo) (r : Option Lane) : (s.setLane l r).tx = s.tx := rfl
@[simp] theorem State.setLane_map (s : State) (l : LaneNo) (r : Option Lane) : (s.setLane l r).map = s.map := rfl
@[simp] theorem State.setLane_claimQueue (s : State) (l : LaneNo) (r : Option Lane) :
    (s.setLane l r).claimQueue = s.claimQueue := rfl
@[simp] theorem State.setLane_lanes (s : State) (l : LaneNo) (r : Option Lane) :
    (s.setLane l r).lanes = s.lanes.set l r := rfl
@[simp] theorem State.setLane_streams (s : State) (l : LaneNo) (r : Option Lane) :
    (s.setLane l r).streams = s.streams := rfl
@[simp] theorem State.setLane_inTransit (s : State) (l : LaneNo) (r : Option Lane) :
    (s.setLane l r).inTransit = s.inTransit := rfl
@[simp] theorem State.setLane_subs (s : State) (l : LaneNo) (r : Option Lane) : (s.setLane l r).subs = s.subs := rfl
@[simp] theorem State.setLane_freeList (s : State) (l : LaneNo) (r : Option Lane) :
    (s.setLane l r).freeList = s.freeList := rfl
@[simp] theorem State.setLane_events (s : State) (l : LaneNo) (r : Option Lane) :
    (s.setLane l r).events = s.events := rfl
@[simp] theorem State.setLane_link (s : State) (l : LaneNo) (r : Option Lane) : (s.setLane l r).link = s.link := rfl
@[simp] theorem State.setLane_choices (s : State) (l : LaneNo) (r : Option Lane) :
    (s.setLane l r).choices = s.choices := rfl

/-! ### `State.drawUsed` -/

@[simp] theorem State.drawUsed_pending (s : State) : (s.drawUsed).pending = s.pending := rfl
@[simp] theorem State.drawUsed_resetHeld (s : State) : (s.drawUsed).resetHeld = s.resetHeld := rfl
@[simp] theorem State.drawUsed_selectLow (s : State) : (s.drawUsed).selectLow = s.selectLow := rfl
@[simp] theorem State.drawUsed_carrier (s : State) : (s.drawUsed).carrier = s.carrier := rfl
@[simp] theorem State.drawUsed_receiver (s : State) : (s.drawUsed).receiver = s.receiver := rfl
@[simp] theorem State.drawUsed_station (s : State) : (s.drawUsed).station = s.station := rfl
@[simp] theorem State.drawUsed_config (s : State) : (s.drawUsed).config = s.config := rfl
@[simp] theorem State.drawUsed_timeline (s : State) : (s.drawUsed).timeline = s.timeline := rfl
@[simp] theorem State.drawUsed_holdover (s : State) : (s.drawUsed).holdover = s.holdover := rfl
@[simp] theorem State.drawUsed_settle (s : State) : (s.drawUsed).settle = s.settle := rfl
@[simp] theorem State.drawUsed_listenTimer (s : State) : (s.drawUsed).listenTimer = s.listenTimer := rfl
@[simp] theorem State.drawUsed_sessionFlag (s : State) : (s.drawUsed).sessionFlag = s.sessionFlag := rfl
@[simp] theorem State.drawUsed_counters (s : State) : (s.drawUsed).counters = s.counters := rfl
@[simp] theorem State.drawUsed_draws (s : State) : (s.drawUsed).draws = s.draws + 1 := rfl
@[simp] theorem State.drawUsed_drawnPosition (s : State) : (s.drawUsed).drawnPosition = s.drawnPosition := rfl
@[simp] theorem State.drawUsed_beaconHeard (s : State) : (s.drawUsed).beaconHeard = s.beaconHeard := rfl
@[simp] theorem State.drawUsed_activityCurrent (s : State) : (s.drawUsed).activityCurrent = s.activityCurrent := rfl
@[simp] theorem State.drawUsed_activityPrevious (s : State) :
    (s.drawUsed).activityPrevious = s.activityPrevious := rfl
@[simp] theorem State.drawUsed_reports (s : State) : (s.drawUsed).reports = s.reports := rfl
@[simp] theorem State.drawUsed_tx (s : State) : (s.drawUsed).tx = s.tx := rfl
@[simp] theorem State.drawUsed_map (s : State) : (s.drawUsed).map = s.map := rfl
@[simp] theorem State.drawUsed_claimQueue (s : State) : (s.drawUsed).claimQueue = s.claimQueue := rfl
@[simp] theorem State.drawUsed_lanes (s : State) : (s.drawUsed).lanes = s.lanes := rfl
@[simp] theorem State.drawUsed_streams (s : State) : (s.drawUsed).streams = s.streams := rfl
@[simp] theorem State.drawUsed_inTransit (s : State) : (s.drawUsed).inTransit = s.inTransit := rfl
@[simp] theorem State.drawUsed_subs (s : State) : (s.drawUsed).subs = s.subs := rfl
@[simp] theorem State.drawUsed_freeList (s : State) : (s.drawUsed).freeList = s.freeList := rfl
@[simp] theorem State.drawUsed_events (s : State) : (s.drawUsed).events = s.events := rfl
@[simp] theorem State.drawUsed_link (s : State) : (s.drawUsed).link = s.link := rfl
@[simp] theorem State.drawUsed_choices (s : State) : (s.drawUsed).choices = s.choices := rfl

/-! ### `State.nextIs` -/

@[simp] theorem State.nextIs_pending (s : State) (b : Boundary) : (s.nextIs b).pending = s.pending := rfl
@[simp] theorem State.nextIs_resetHeld (s : State) (b : Boundary) : (s.nextIs b).resetHeld = s.resetHeld := rfl
@[simp] theorem State.nextIs_selectLow (s : State) (b : Boundary) : (s.nextIs b).selectLow = s.selectLow := rfl
@[simp] theorem State.nextIs_carrier (s : State) (b : Boundary) : (s.nextIs b).carrier = s.carrier := rfl
@[simp] theorem State.nextIs_receiver (s : State) (b : Boundary) : (s.nextIs b).receiver = s.receiver := rfl
@[simp] theorem State.nextIs_station (s : State) (b : Boundary) : (s.nextIs b).station = s.station := rfl
@[simp] theorem State.nextIs_config (s : State) (b : Boundary) : (s.nextIs b).config = s.config := rfl
@[simp] theorem State.nextIs_timeline (s : State) (b : Boundary) :
    (s.nextIs b).timeline = s.timeline.map fun t => { t with nextBoundary := b } := rfl
@[simp] theorem State.nextIs_holdover (s : State) (b : Boundary) : (s.nextIs b).holdover = s.holdover := rfl
@[simp] theorem State.nextIs_settle (s : State) (b : Boundary) : (s.nextIs b).settle = s.settle := rfl
@[simp] theorem State.nextIs_listenTimer (s : State) (b : Boundary) : (s.nextIs b).listenTimer = s.listenTimer := rfl
@[simp] theorem State.nextIs_sessionFlag (s : State) (b : Boundary) : (s.nextIs b).sessionFlag = s.sessionFlag := rfl
@[simp] theorem State.nextIs_counters (s : State) (b : Boundary) : (s.nextIs b).counters = s.counters := rfl
@[simp] theorem State.nextIs_draws (s : State) (b : Boundary) : (s.nextIs b).draws = s.draws := rfl
@[simp] theorem State.nextIs_drawnPosition (s : State) (b : Boundary) :
    (s.nextIs b).drawnPosition = s.drawnPosition := rfl
@[simp] theorem State.nextIs_beaconHeard (s : State) (b : Boundary) : (s.nextIs b).beaconHeard = s.beaconHeard := rfl
@[simp] theorem State.nextIs_activityCurrent (s : State) (b : Boundary) :
    (s.nextIs b).activityCurrent = s.activityCurrent := rfl
@[simp] theorem State.nextIs_activityPrevious (s : State) (b : Boundary) :
    (s.nextIs b).activityPrevious = s.activityPrevious := rfl
@[simp] theorem State.nextIs_reports (s : State) (b : Boundary) : (s.nextIs b).reports = s.reports := rfl
@[simp] theorem State.nextIs_tx (s : State) (b : Boundary) : (s.nextIs b).tx = s.tx := rfl
@[simp] theorem State.nextIs_map (s : State) (b : Boundary) : (s.nextIs b).map = s.map := rfl
@[simp] theorem State.nextIs_claimQueue (s : State) (b : Boundary) : (s.nextIs b).claimQueue = s.claimQueue := rfl
@[simp] theorem State.nextIs_lanes (s : State) (b : Boundary) : (s.nextIs b).lanes = s.lanes := rfl
@[simp] theorem State.nextIs_streams (s : State) (b : Boundary) : (s.nextIs b).streams = s.streams := rfl
@[simp] theorem State.nextIs_inTransit (s : State) (b : Boundary) : (s.nextIs b).inTransit = s.inTransit := rfl
@[simp] theorem State.nextIs_subs (s : State) (b : Boundary) : (s.nextIs b).subs = s.subs := rfl
@[simp] theorem State.nextIs_freeList (s : State) (b : Boundary) : (s.nextIs b).freeList = s.freeList := rfl
@[simp] theorem State.nextIs_events (s : State) (b : Boundary) : (s.nextIs b).events = s.events := rfl
@[simp] theorem State.nextIs_link (s : State) (b : Boundary) : (s.nextIs b).link = s.link := rfl
@[simp] theorem State.nextIs_choices (s : State) (b : Boundary) : (s.nextIs b).choices = s.choices := rfl

/-! ### `State.post` -/

@[simp] theorem State.post_pending (s : State) (e : Event) : (s.post e).pending = s.pending := rfl
@[simp] theorem State.post_resetHeld (s : State) (e : Event) : (s.post e).resetHeld = s.resetHeld := rfl
@[simp] theorem State.post_selectLow (s : State) (e : Event) : (s.post e).selectLow = s.selectLow := rfl
@[simp] theorem State.post_carrier (s : State) (e : Event) : (s.post e).carrier = s.carrier := rfl
@[simp] theorem State.post_receiver (s : State) (e : Event) : (s.post e).receiver = s.receiver := rfl
@[simp] theorem State.post_station (s : State) (e : Event) : (s.post e).station = s.station := rfl
@[simp] theorem State.post_config (s : State) (e : Event) : (s.post e).config = s.config := rfl
@[simp] theorem State.post_timeline (s : State) (e : Event) : (s.post e).timeline = s.timeline := rfl
@[simp] theorem State.post_holdover (s : State) (e : Event) : (s.post e).holdover = s.holdover := rfl
@[simp] theorem State.post_settle (s : State) (e : Event) : (s.post e).settle = s.settle := rfl
@[simp] theorem State.post_listenTimer (s : State) (e : Event) : (s.post e).listenTimer = s.listenTimer := rfl
@[simp] theorem State.post_sessionFlag (s : State) (e : Event) : (s.post e).sessionFlag = s.sessionFlag := rfl
@[simp] theorem State.post_counters (s : State) (e : Event) : (s.post e).counters = s.counters := rfl
@[simp] theorem State.post_draws (s : State) (e : Event) : (s.post e).draws = s.draws := rfl
@[simp] theorem State.post_drawnPosition (s : State) (e : Event) : (s.post e).drawnPosition = s.drawnPosition := rfl
@[simp] theorem State.post_beaconHeard (s : State) (e : Event) : (s.post e).beaconHeard = s.beaconHeard := rfl
@[simp] theorem State.post_activityCurrent (s : State) (e : Event) :
    (s.post e).activityCurrent = s.activityCurrent := rfl
@[simp] theorem State.post_activityPrevious (s : State) (e : Event) :
    (s.post e).activityPrevious = s.activityPrevious := rfl
@[simp] theorem State.post_reports (s : State) (e : Event) : (s.post e).reports = s.reports := rfl
@[simp] theorem State.post_tx (s : State) (e : Event) : (s.post e).tx = s.tx := rfl
@[simp] theorem State.post_map (s : State) (e : Event) : (s.post e).map = s.map := rfl
@[simp] theorem State.post_claimQueue (s : State) (e : Event) : (s.post e).claimQueue = s.claimQueue := rfl
@[simp] theorem State.post_lanes (s : State) (e : Event) : (s.post e).lanes = s.lanes := rfl
@[simp] theorem State.post_streams (s : State) (e : Event) : (s.post e).streams = s.streams := rfl
@[simp] theorem State.post_inTransit (s : State) (e : Event) : (s.post e).inTransit = s.inTransit := rfl
@[simp] theorem State.post_subs (s : State) (e : Event) : (s.post e).subs = s.subs := rfl
@[simp] theorem State.post_freeList (s : State) (e : Event) : (s.post e).freeList = s.freeList := rfl
@[simp] theorem State.post_events (s : State) (e : Event) :
    (s.post e).events = enqueueEvent s.events { event := e, cycle := s.cycleNumber } := rfl
@[simp] theorem State.post_link (s : State) (e : Event) : (s.post e).link = s.link := rfl
@[simp] theorem State.post_choices (s : State) (e : Event) : (s.post e).choices = s.choices := rfl

/-! ### `State.release` -/

@[simp] theorem State.release_pending (s : State) (bs : List BufferNo) : (s.release bs).pending = s.pending := rfl
@[simp] theorem State.release_resetHeld (s : State) (bs : List BufferNo) : (s.release bs).resetHeld = s.resetHeld := rfl
@[simp] theorem State.release_selectLow (s : State) (bs : List BufferNo) : (s.release bs).selectLow = s.selectLow := rfl
@[simp] theorem State.release_carrier (s : State) (bs : List BufferNo) : (s.release bs).carrier = s.carrier := rfl
@[simp] theorem State.release_receiver (s : State) (bs : List BufferNo) :
    (s.release bs).receiver = s.receiver := rfl
@[simp] theorem State.release_station (s : State) (bs : List BufferNo) : (s.release bs).station = s.station := rfl
@[simp] theorem State.release_config (s : State) (bs : List BufferNo) : (s.release bs).config = s.config := rfl
@[simp] theorem State.release_timeline (s : State) (bs : List BufferNo) : (s.release bs).timeline = s.timeline := rfl
@[simp] theorem State.release_holdover (s : State) (bs : List BufferNo) : (s.release bs).holdover = s.holdover := rfl
@[simp] theorem State.release_settle (s : State) (bs : List BufferNo) : (s.release bs).settle = s.settle := rfl
@[simp] theorem State.release_listenTimer (s : State) (bs : List BufferNo) :
    (s.release bs).listenTimer = s.listenTimer := rfl
@[simp] theorem State.release_sessionFlag (s : State) (bs : List BufferNo) :
    (s.release bs).sessionFlag = s.sessionFlag := rfl
@[simp] theorem State.release_counters (s : State) (bs : List BufferNo) : (s.release bs).counters = s.counters := rfl
@[simp] theorem State.release_draws (s : State) (bs : List BufferNo) : (s.release bs).draws = s.draws := rfl
@[simp] theorem State.release_drawnPosition (s : State) (bs : List BufferNo) :
    (s.release bs).drawnPosition = s.drawnPosition := rfl
@[simp] theorem State.release_beaconHeard (s : State) (bs : List BufferNo) :
    (s.release bs).beaconHeard = s.beaconHeard := rfl
@[simp] theorem State.release_activityCurrent (s : State) (bs : List BufferNo) :
    (s.release bs).activityCurrent = s.activityCurrent := rfl
@[simp] theorem State.release_activityPrevious (s : State) (bs : List BufferNo) :
    (s.release bs).activityPrevious = s.activityPrevious := rfl
@[simp] theorem State.release_reports (s : State) (bs : List BufferNo) : (s.release bs).reports = s.reports := rfl
@[simp] theorem State.release_tx (s : State) (bs : List BufferNo) : (s.release bs).tx = s.tx := rfl
@[simp] theorem State.release_map (s : State) (bs : List BufferNo) : (s.release bs).map = s.map := rfl
@[simp] theorem State.release_claimQueue (s : State) (bs : List BufferNo) :
    (s.release bs).claimQueue = s.claimQueue := rfl
@[simp] theorem State.release_lanes (s : State) (bs : List BufferNo) : (s.release bs).lanes = s.lanes := rfl
@[simp] theorem State.release_streams (s : State) (bs : List BufferNo) : (s.release bs).streams = s.streams := rfl
@[simp] theorem State.release_inTransit (s : State) (bs : List BufferNo) : (s.release bs).inTransit = s.inTransit := rfl
@[simp] theorem State.release_subs (s : State) (bs : List BufferNo) : (s.release bs).subs = s.subs := rfl
@[simp] theorem State.release_freeList (s : State) (bs : List BufferNo) :
    (s.release bs).freeList = s.freeList ++ bs := rfl
@[simp] theorem State.release_events (s : State) (bs : List BufferNo) : (s.release bs).events = s.events := rfl
@[simp] theorem State.release_link (s : State) (bs : List BufferNo) : (s.release bs).link = s.link := rfl
@[simp] theorem State.release_choices (s : State) (bs : List BufferNo) : (s.release bs).choices = s.choices := rfl

/-! ### `State.allocate` -/

@[simp] theorem State.allocate_pending (s : State) (b : BufferNo) : (s.allocate b).pending = s.pending := rfl
@[simp] theorem State.allocate_resetHeld (s : State) (b : BufferNo) : (s.allocate b).resetHeld = s.resetHeld := rfl
@[simp] theorem State.allocate_selectLow (s : State) (b : BufferNo) : (s.allocate b).selectLow = s.selectLow := rfl
@[simp] theorem State.allocate_carrier (s : State) (b : BufferNo) : (s.allocate b).carrier = s.carrier := rfl
@[simp] theorem State.allocate_receiver (s : State) (b : BufferNo) :
    (s.allocate b).receiver = s.receiver := rfl
@[simp] theorem State.allocate_station (s : State) (b : BufferNo) : (s.allocate b).station = s.station := rfl
@[simp] theorem State.allocate_config (s : State) (b : BufferNo) : (s.allocate b).config = s.config := rfl
@[simp] theorem State.allocate_timeline (s : State) (b : BufferNo) : (s.allocate b).timeline = s.timeline := rfl
@[simp] theorem State.allocate_holdover (s : State) (b : BufferNo) : (s.allocate b).holdover = s.holdover := rfl
@[simp] theorem State.allocate_settle (s : State) (b : BufferNo) : (s.allocate b).settle = s.settle := rfl
@[simp] theorem State.allocate_listenTimer (s : State) (b : BufferNo) :
    (s.allocate b).listenTimer = s.listenTimer := rfl
@[simp] theorem State.allocate_sessionFlag (s : State) (b : BufferNo) :
    (s.allocate b).sessionFlag = s.sessionFlag := rfl
@[simp] theorem State.allocate_counters (s : State) (b : BufferNo) : (s.allocate b).counters = s.counters := rfl
@[simp] theorem State.allocate_draws (s : State) (b : BufferNo) : (s.allocate b).draws = s.draws := rfl
@[simp] theorem State.allocate_drawnPosition (s : State) (b : BufferNo) :
    (s.allocate b).drawnPosition = s.drawnPosition := rfl
@[simp] theorem State.allocate_beaconHeard (s : State) (b : BufferNo) :
    (s.allocate b).beaconHeard = s.beaconHeard := rfl
@[simp] theorem State.allocate_activityCurrent (s : State) (b : BufferNo) :
    (s.allocate b).activityCurrent = s.activityCurrent := rfl
@[simp] theorem State.allocate_activityPrevious (s : State) (b : BufferNo) :
    (s.allocate b).activityPrevious = s.activityPrevious := rfl
@[simp] theorem State.allocate_reports (s : State) (b : BufferNo) : (s.allocate b).reports = s.reports := rfl
@[simp] theorem State.allocate_tx (s : State) (b : BufferNo) : (s.allocate b).tx = s.tx := rfl
@[simp] theorem State.allocate_map (s : State) (b : BufferNo) : (s.allocate b).map = s.map := rfl
@[simp] theorem State.allocate_claimQueue (s : State) (b : BufferNo) : (s.allocate b).claimQueue = s.claimQueue := rfl
@[simp] theorem State.allocate_lanes (s : State) (b : BufferNo) : (s.allocate b).lanes = s.lanes := rfl
@[simp] theorem State.allocate_streams (s : State) (b : BufferNo) : (s.allocate b).streams = s.streams := rfl
@[simp] theorem State.allocate_inTransit (s : State) (b : BufferNo) : (s.allocate b).inTransit = s.inTransit := rfl
@[simp] theorem State.allocate_subs (s : State) (b : BufferNo) : (s.allocate b).subs = s.subs := rfl
@[simp] theorem State.allocate_freeList (s : State) (b : BufferNo) : (s.allocate b).freeList = s.freeList.erase b := rfl
@[simp] theorem State.allocate_events (s : State) (b : BufferNo) : (s.allocate b).events = s.events := rfl
@[simp] theorem State.allocate_link (s : State) (b : BufferNo) : (s.allocate b).link = s.link := rfl
@[simp] theorem State.allocate_choices (s : State) (b : BufferNo) : (s.allocate b).choices = s.choices + 1 := rfl

/-! ### `State.restartReceiver` -/

@[simp] theorem State.restartReceiver_pending (s : State) (m : Time) :
    (s.restartReceiver m).pending = s.pending := rfl
@[simp] theorem State.restartReceiver_resetHeld (s : State) (m : Time) :
    (s.restartReceiver m).resetHeld = s.resetHeld := rfl
@[simp] theorem State.restartReceiver_selectLow (s : State) (m : Time) :
    (s.restartReceiver m).selectLow = s.selectLow := rfl
@[simp] theorem State.restartReceiver_carrier (s : State) (m : Time) :
    (s.restartReceiver m).carrier = s.carrier := rfl
@[simp] theorem State.restartReceiver_receiver (s : State) (m : Time) :
    (s.restartReceiver m).receiver = .restarted m := rfl
@[simp] theorem State.restartReceiver_station (s : State) (m : Time) :
    (s.restartReceiver m).station = s.station := rfl
@[simp] theorem State.restartReceiver_config (s : State) (m : Time) :
    (s.restartReceiver m).config = s.config := rfl
@[simp] theorem State.restartReceiver_timeline (s : State) (m : Time) :
    (s.restartReceiver m).timeline = s.timeline := rfl
@[simp] theorem State.restartReceiver_holdover (s : State) (m : Time) :
    (s.restartReceiver m).holdover = s.holdover := rfl
@[simp] theorem State.restartReceiver_settle (s : State) (m : Time) :
    (s.restartReceiver m).settle = s.settle := rfl
@[simp] theorem State.restartReceiver_listenTimer (s : State) (m : Time) :
    (s.restartReceiver m).listenTimer = s.listenTimer := rfl
@[simp] theorem State.restartReceiver_sessionFlag (s : State) (m : Time) :
    (s.restartReceiver m).sessionFlag = s.sessionFlag := rfl
@[simp] theorem State.restartReceiver_counters (s : State) (m : Time) :
    (s.restartReceiver m).counters = s.counters := rfl
@[simp] theorem State.restartReceiver_draws (s : State) (m : Time) :
    (s.restartReceiver m).draws = s.draws := rfl
@[simp] theorem State.restartReceiver_drawnPosition (s : State) (m : Time) :
    (s.restartReceiver m).drawnPosition = s.drawnPosition := rfl
@[simp] theorem State.restartReceiver_beaconHeard (s : State) (m : Time) :
    (s.restartReceiver m).beaconHeard = s.beaconHeard := rfl
@[simp] theorem State.restartReceiver_activityCurrent (s : State) (m : Time) :
    (s.restartReceiver m).activityCurrent = s.activityCurrent := rfl
@[simp] theorem State.restartReceiver_activityPrevious (s : State) (m : Time) :
    (s.restartReceiver m).activityPrevious = s.activityPrevious := rfl
@[simp] theorem State.restartReceiver_reports (s : State) (m : Time) :
    (s.restartReceiver m).reports = s.reports := rfl
@[simp] theorem State.restartReceiver_tx (s : State) (m : Time) :
    (s.restartReceiver m).tx = s.tx := rfl
@[simp] theorem State.restartReceiver_map (s : State) (m : Time) :
    (s.restartReceiver m).map = s.map := rfl
@[simp] theorem State.restartReceiver_claimQueue (s : State) (m : Time) :
    (s.restartReceiver m).claimQueue = s.claimQueue := rfl
@[simp] theorem State.restartReceiver_lanes (s : State) (m : Time) :
    (s.restartReceiver m).lanes = s.lanes := rfl
@[simp] theorem State.restartReceiver_streams (s : State) (m : Time) :
    (s.restartReceiver m).streams = s.streams := rfl
@[simp] theorem State.restartReceiver_inTransit (s : State) (m : Time) :
    (s.restartReceiver m).inTransit = s.inTransit := rfl
@[simp] theorem State.restartReceiver_subs (s : State) (m : Time) :
    (s.restartReceiver m).subs = s.subs := rfl
@[simp] theorem State.restartReceiver_freeList (s : State) (m : Time) :
    (s.restartReceiver m).freeList = s.freeList := rfl
@[simp] theorem State.restartReceiver_events (s : State) (m : Time) :
    (s.restartReceiver m).events = s.events := rfl
@[simp] theorem State.restartReceiver_link (s : State) (m : Time) :
    (s.restartReceiver m).link = s.link := rfl
@[simp] theorem State.restartReceiver_choices (s : State) (m : Time) :
    (s.restartReceiver m).choices = s.choices := rfl

/-! ### `State.hears` -/

@[simp] theorem State.hears_pending (s : State) (time : Time) :
    (s.hears time).pending = s.pending := by
  unfold State.hears; split <;> rfl
@[simp] theorem State.hears_resetHeld (s : State) (time : Time) :
    (s.hears time).resetHeld = s.resetHeld := by
  unfold State.hears; split <;> rfl
@[simp] theorem State.hears_selectLow (s : State) (time : Time) :
    (s.hears time).selectLow = s.selectLow := by
  unfold State.hears; split <;> rfl
@[simp] theorem State.hears_carrier (s : State) (time : Time) :
    (s.hears time).carrier = s.carrier := by
  unfold State.hears; split <;> rfl
@[simp] theorem State.hears_station (s : State) (time : Time) :
    (s.hears time).station = s.station := by
  unfold State.hears; split <;> rfl
@[simp] theorem State.hears_config (s : State) (time : Time) :
    (s.hears time).config = s.config := by
  unfold State.hears; split <;> rfl
@[simp] theorem State.hears_timeline (s : State) (time : Time) :
    (s.hears time).timeline = s.timeline := by
  unfold State.hears; split <;> rfl
@[simp] theorem State.hears_holdover (s : State) (time : Time) :
    (s.hears time).holdover = s.holdover := by
  unfold State.hears; split <;> rfl
@[simp] theorem State.hears_settle (s : State) (time : Time) :
    (s.hears time).settle = s.settle := by
  unfold State.hears; split <;> rfl
@[simp] theorem State.hears_listenTimer (s : State) (time : Time) :
    (s.hears time).listenTimer = s.listenTimer := by
  unfold State.hears; split <;> rfl
@[simp] theorem State.hears_sessionFlag (s : State) (time : Time) :
    (s.hears time).sessionFlag = s.sessionFlag := by
  unfold State.hears; split <;> rfl
@[simp] theorem State.hears_counters (s : State) (time : Time) :
    (s.hears time).counters = s.counters := by
  unfold State.hears; split <;> rfl
@[simp] theorem State.hears_draws (s : State) (time : Time) :
    (s.hears time).draws = s.draws := by
  unfold State.hears; split <;> rfl
@[simp] theorem State.hears_drawnPosition (s : State) (time : Time) :
    (s.hears time).drawnPosition = s.drawnPosition := by
  unfold State.hears; split <;> rfl
@[simp] theorem State.hears_beaconHeard (s : State) (time : Time) :
    (s.hears time).beaconHeard = s.beaconHeard := by
  unfold State.hears; split <;> rfl
@[simp] theorem State.hears_activityCurrent (s : State) (time : Time) :
    (s.hears time).activityCurrent = s.activityCurrent := by
  unfold State.hears; split <;> rfl
@[simp] theorem State.hears_activityPrevious (s : State) (time : Time) :
    (s.hears time).activityPrevious = s.activityPrevious := by
  unfold State.hears; split <;> rfl
@[simp] theorem State.hears_reports (s : State) (time : Time) :
    (s.hears time).reports = s.reports := by
  unfold State.hears; split <;> rfl
@[simp] theorem State.hears_tx (s : State) (time : Time) :
    (s.hears time).tx = s.tx := by
  unfold State.hears; split <;> rfl
@[simp] theorem State.hears_map (s : State) (time : Time) :
    (s.hears time).map = s.map := by
  unfold State.hears; split <;> rfl
@[simp] theorem State.hears_claimQueue (s : State) (time : Time) :
    (s.hears time).claimQueue = s.claimQueue := by
  unfold State.hears; split <;> rfl
@[simp] theorem State.hears_lanes (s : State) (time : Time) :
    (s.hears time).lanes = s.lanes := by
  unfold State.hears; split <;> rfl
@[simp] theorem State.hears_streams (s : State) (time : Time) :
    (s.hears time).streams = s.streams := by
  unfold State.hears; split <;> rfl
@[simp] theorem State.hears_inTransit (s : State) (time : Time) :
    (s.hears time).inTransit = s.inTransit := by
  unfold State.hears; split <;> rfl
@[simp] theorem State.hears_subs (s : State) (time : Time) :
    (s.hears time).subs = s.subs := by
  unfold State.hears; split <;> rfl
@[simp] theorem State.hears_freeList (s : State) (time : Time) :
    (s.hears time).freeList = s.freeList := by
  unfold State.hears; split <;> rfl
@[simp] theorem State.hears_events (s : State) (time : Time) :
    (s.hears time).events = s.events := by
  unfold State.hears; split <;> rfl
@[simp] theorem State.hears_link (s : State) (time : Time) :
    (s.hears time).link = s.link := by
  unfold State.hears; split <;> rfl
@[simp] theorem State.hears_choices (s : State) (time : Time) :
    (s.hears time).choices = s.choices := by
  unfold State.hears; split <;> rfl

/-! ### `State.switchOnReceiver` -/

@[simp] theorem State.switchOnReceiver_pending (s : State) :
    (s.switchOnReceiver).pending = s.pending := by
  unfold State.switchOnReceiver; split <;> rfl
@[simp] theorem State.switchOnReceiver_resetHeld (s : State) :
    (s.switchOnReceiver).resetHeld = s.resetHeld := by
  unfold State.switchOnReceiver; split <;> rfl
@[simp] theorem State.switchOnReceiver_selectLow (s : State) :
    (s.switchOnReceiver).selectLow = s.selectLow := by
  unfold State.switchOnReceiver; split <;> rfl
@[simp] theorem State.switchOnReceiver_carrier (s : State) :
    (s.switchOnReceiver).carrier = s.carrier := by
  unfold State.switchOnReceiver; split <;> rfl
@[simp] theorem State.switchOnReceiver_station (s : State) :
    (s.switchOnReceiver).station = s.station := by
  unfold State.switchOnReceiver; split <;> rfl
@[simp] theorem State.switchOnReceiver_config (s : State) :
    (s.switchOnReceiver).config = s.config := by
  unfold State.switchOnReceiver; split <;> rfl
@[simp] theorem State.switchOnReceiver_timeline (s : State) :
    (s.switchOnReceiver).timeline = s.timeline := by
  unfold State.switchOnReceiver; split <;> rfl
@[simp] theorem State.switchOnReceiver_holdover (s : State) :
    (s.switchOnReceiver).holdover = s.holdover := by
  unfold State.switchOnReceiver; split <;> rfl
@[simp] theorem State.switchOnReceiver_settle (s : State) :
    (s.switchOnReceiver).settle = s.settle := by
  unfold State.switchOnReceiver; split <;> rfl
@[simp] theorem State.switchOnReceiver_listenTimer (s : State) :
    (s.switchOnReceiver).listenTimer = s.listenTimer := by
  unfold State.switchOnReceiver; split <;> rfl
@[simp] theorem State.switchOnReceiver_sessionFlag (s : State) :
    (s.switchOnReceiver).sessionFlag = s.sessionFlag := by
  unfold State.switchOnReceiver; split <;> rfl
@[simp] theorem State.switchOnReceiver_counters (s : State) :
    (s.switchOnReceiver).counters = s.counters := by
  unfold State.switchOnReceiver; split <;> rfl
@[simp] theorem State.switchOnReceiver_draws (s : State) :
    (s.switchOnReceiver).draws = s.draws := by
  unfold State.switchOnReceiver; split <;> rfl
@[simp] theorem State.switchOnReceiver_drawnPosition (s : State) :
    (s.switchOnReceiver).drawnPosition = s.drawnPosition := by
  unfold State.switchOnReceiver; split <;> rfl
@[simp] theorem State.switchOnReceiver_beaconHeard (s : State) :
    (s.switchOnReceiver).beaconHeard = s.beaconHeard := by
  unfold State.switchOnReceiver; split <;> rfl
@[simp] theorem State.switchOnReceiver_activityCurrent (s : State) :
    (s.switchOnReceiver).activityCurrent = s.activityCurrent := by
  unfold State.switchOnReceiver; split <;> rfl
@[simp] theorem State.switchOnReceiver_activityPrevious (s : State) :
    (s.switchOnReceiver).activityPrevious = s.activityPrevious := by
  unfold State.switchOnReceiver; split <;> rfl
@[simp] theorem State.switchOnReceiver_reports (s : State) :
    (s.switchOnReceiver).reports = s.reports := by
  unfold State.switchOnReceiver; split <;> rfl
@[simp] theorem State.switchOnReceiver_tx (s : State) :
    (s.switchOnReceiver).tx = s.tx := by
  unfold State.switchOnReceiver; split <;> rfl
@[simp] theorem State.switchOnReceiver_map (s : State) :
    (s.switchOnReceiver).map = s.map := by
  unfold State.switchOnReceiver; split <;> rfl
@[simp] theorem State.switchOnReceiver_claimQueue (s : State) :
    (s.switchOnReceiver).claimQueue = s.claimQueue := by
  unfold State.switchOnReceiver; split <;> rfl
@[simp] theorem State.switchOnReceiver_lanes (s : State) :
    (s.switchOnReceiver).lanes = s.lanes := by
  unfold State.switchOnReceiver; split <;> rfl
@[simp] theorem State.switchOnReceiver_streams (s : State) :
    (s.switchOnReceiver).streams = s.streams := by
  unfold State.switchOnReceiver; split <;> rfl
@[simp] theorem State.switchOnReceiver_inTransit (s : State) :
    (s.switchOnReceiver).inTransit = s.inTransit := by
  unfold State.switchOnReceiver; split <;> rfl
@[simp] theorem State.switchOnReceiver_subs (s : State) :
    (s.switchOnReceiver).subs = s.subs := by
  unfold State.switchOnReceiver; split <;> rfl
@[simp] theorem State.switchOnReceiver_freeList (s : State) :
    (s.switchOnReceiver).freeList = s.freeList := by
  unfold State.switchOnReceiver; split <;> rfl
@[simp] theorem State.switchOnReceiver_events (s : State) :
    (s.switchOnReceiver).events = s.events := by
  unfold State.switchOnReceiver; split <;> rfl
@[simp] theorem State.switchOnReceiver_link (s : State) :
    (s.switchOnReceiver).link = s.link := by
  unfold State.switchOnReceiver; split <;> rfl

/-! ### `State.handOver` -/

@[simp] theorem State.handOver_pending (s : State) (f : Frame) : (s.handOver f).pending = s.pending := rfl
@[simp] theorem State.handOver_resetHeld (s : State) (f : Frame) : (s.handOver f).resetHeld = s.resetHeld := rfl
@[simp] theorem State.handOver_selectLow (s : State) (f : Frame) : (s.handOver f).selectLow = s.selectLow := rfl
@[simp] theorem State.handOver_carrier (s : State) (f : Frame) : (s.handOver f).carrier = s.carrier := rfl
@[simp] theorem State.handOver_receiver (s : State) (f : Frame) :
    (s.handOver f).receiver = s.receiver := rfl
@[simp] theorem State.handOver_station (s : State) (f : Frame) : (s.handOver f).station = s.station := rfl
@[simp] theorem State.handOver_config (s : State) (f : Frame) : (s.handOver f).config = s.config := rfl
@[simp] theorem State.handOver_timeline (s : State) (f : Frame) : (s.handOver f).timeline = s.timeline := rfl
@[simp] theorem State.handOver_holdover (s : State) (f : Frame) : (s.handOver f).holdover = s.holdover := rfl
@[simp] theorem State.handOver_settle (s : State) (f : Frame) : (s.handOver f).settle = s.settle := rfl
@[simp] theorem State.handOver_listenTimer (s : State) (f : Frame) : (s.handOver f).listenTimer = s.listenTimer := rfl
@[simp] theorem State.handOver_sessionFlag (s : State) (f : Frame) : (s.handOver f).sessionFlag = s.sessionFlag := rfl
@[simp] theorem State.handOver_counters (s : State) (f : Frame) : (s.handOver f).counters = s.counters := rfl
@[simp] theorem State.handOver_draws (s : State) (f : Frame) : (s.handOver f).draws = s.draws := rfl
@[simp] theorem State.handOver_drawnPosition (s : State) (f : Frame) :
    (s.handOver f).drawnPosition = s.drawnPosition := rfl
@[simp] theorem State.handOver_beaconHeard (s : State) (f : Frame) : (s.handOver f).beaconHeard = s.beaconHeard := rfl
@[simp] theorem State.handOver_activityCurrent (s : State) (f : Frame) :
    (s.handOver f).activityCurrent = s.activityCurrent := rfl
@[simp] theorem State.handOver_activityPrevious (s : State) (f : Frame) :
    (s.handOver f).activityPrevious = s.activityPrevious := rfl
@[simp] theorem State.handOver_reports (s : State) (f : Frame) : (s.handOver f).reports = s.reports := rfl
@[simp] theorem State.handOver_tx (s : State) (f : Frame) :
    (s.handOver f).tx = some { frame := f, stage := .handedOver } := rfl
@[simp] theorem State.handOver_map (s : State) (f : Frame) : (s.handOver f).map = s.map := rfl
@[simp] theorem State.handOver_claimQueue (s : State) (f : Frame) : (s.handOver f).claimQueue = s.claimQueue := rfl
@[simp] theorem State.handOver_lanes (s : State) (f : Frame) : (s.handOver f).lanes = s.lanes := rfl
@[simp] theorem State.handOver_streams (s : State) (f : Frame) : (s.handOver f).streams = s.streams := rfl
@[simp] theorem State.handOver_inTransit (s : State) (f : Frame) : (s.handOver f).inTransit = s.inTransit := rfl
@[simp] theorem State.handOver_subs (s : State) (f : Frame) : (s.handOver f).subs = s.subs := rfl
@[simp] theorem State.handOver_freeList (s : State) (f : Frame) : (s.handOver f).freeList = s.freeList := rfl
@[simp] theorem State.handOver_events (s : State) (f : Frame) : (s.handOver f).events = s.events := rfl
@[simp] theorem State.handOver_link (s : State) (f : Frame) : (s.handOver f).link = s.link := rfl
@[simp] theorem State.handOver_choices (s : State) (f : Frame) : (s.handOver f).choices = s.choices := rfl

/-! ### `State.openDivision` -/

@[simp] theorem State.openDivision_pending (s : State) : (s.openDivision).pending = s.pending := rfl
@[simp] theorem State.openDivision_resetHeld (s : State) : (s.openDivision).resetHeld = s.resetHeld := rfl
@[simp] theorem State.openDivision_selectLow (s : State) : (s.openDivision).selectLow = s.selectLow := rfl
@[simp] theorem State.openDivision_carrier (s : State) : (s.openDivision).carrier = s.carrier := rfl
@[simp] theorem State.openDivision_receiver (s : State) : (s.openDivision).receiver = s.receiver := rfl
@[simp] theorem State.openDivision_station (s : State) : (s.openDivision).station = s.station := rfl
@[simp] theorem State.openDivision_config (s : State) : (s.openDivision).config = s.config := rfl
@[simp] theorem State.openDivision_timeline (s : State) : (s.openDivision).timeline = s.timeline := rfl
@[simp] theorem State.openDivision_holdover (s : State) : (s.openDivision).holdover = s.holdover := rfl
@[simp] theorem State.openDivision_settle (s : State) : (s.openDivision).settle = s.settle := rfl
@[simp] theorem State.openDivision_listenTimer (s : State) : (s.openDivision).listenTimer = s.listenTimer := rfl
@[simp] theorem State.openDivision_sessionFlag (s : State) : (s.openDivision).sessionFlag = s.sessionFlag := rfl
@[simp] theorem State.openDivision_counters (s : State) : (s.openDivision).counters = s.counters := rfl
@[simp] theorem State.openDivision_draws (s : State) : (s.openDivision).draws = s.draws := rfl
@[simp] theorem State.openDivision_drawnPosition (s : State) : (s.openDivision).drawnPosition = s.drawnPosition := rfl
@[simp] theorem State.openDivision_beaconHeard (s : State) : (s.openDivision).beaconHeard = s.beaconHeard := rfl
@[simp] theorem State.openDivision_activityCurrent (s : State) :
    (s.openDivision).activityCurrent = s.activityCurrent := rfl
@[simp] theorem State.openDivision_activityPrevious (s : State) :
    (s.openDivision).activityPrevious = s.activityPrevious := rfl
@[simp] theorem State.openDivision_reports (s : State) : (s.openDivision).reports = Reports.empty := rfl
@[simp] theorem State.openDivision_tx (s : State) : (s.openDivision).tx = s.tx := rfl
@[simp] theorem State.openDivision_map (s : State) : (s.openDivision).map = s.map := rfl
@[simp] theorem State.openDivision_claimQueue (s : State) : (s.openDivision).claimQueue = s.claimQueue := rfl
@[simp] theorem State.openDivision_lanes (s : State) : (s.openDivision).lanes = s.lanes := rfl
@[simp] theorem State.openDivision_streams (s : State) : (s.openDivision).streams = s.streams := rfl
@[simp] theorem State.openDivision_inTransit (s : State) : (s.openDivision).inTransit = s.inTransit := rfl
@[simp] theorem State.openDivision_subs (s : State) : (s.openDivision).subs = s.subs := rfl
@[simp] theorem State.openDivision_freeList (s : State) : (s.openDivision).freeList = s.freeList := rfl
@[simp] theorem State.openDivision_events (s : State) : (s.openDivision).events = s.events := rfl
@[simp] theorem State.openDivision_link (s : State) : (s.openDivision).link = s.link := rfl
@[simp] theorem State.openDivision_choices (s : State) : (s.openDivision).choices = s.choices := rfl

/-! ### `State.closeDivision` -/

@[simp] theorem State.closeDivision_pending (s : State) : (s.closeDivision).pending = s.pending := rfl
@[simp] theorem State.closeDivision_resetHeld (s : State) : (s.closeDivision).resetHeld = s.resetHeld := rfl
@[simp] theorem State.closeDivision_selectLow (s : State) : (s.closeDivision).selectLow = s.selectLow := rfl
@[simp] theorem State.closeDivision_carrier (s : State) : (s.closeDivision).carrier = s.carrier := rfl
@[simp] theorem State.closeDivision_receiver (s : State) : (s.closeDivision).receiver = s.receiver := rfl
@[simp] theorem State.closeDivision_station (s : State) : (s.closeDivision).station = s.station := rfl
@[simp] theorem State.closeDivision_config (s : State) : (s.closeDivision).config = s.config := rfl
@[simp] theorem State.closeDivision_timeline (s : State) : (s.closeDivision).timeline = s.timeline := rfl
@[simp] theorem State.closeDivision_holdover (s : State) : (s.closeDivision).holdover = s.holdover := rfl
@[simp] theorem State.closeDivision_settle (s : State) : (s.closeDivision).settle = s.settle := rfl
@[simp] theorem State.closeDivision_listenTimer (s : State) : (s.closeDivision).listenTimer = s.listenTimer := rfl
@[simp] theorem State.closeDivision_sessionFlag (s : State) : (s.closeDivision).sessionFlag = s.sessionFlag := rfl
@[simp] theorem State.closeDivision_counters (s : State) : (s.closeDivision).counters = s.counters := rfl
@[simp] theorem State.closeDivision_draws (s : State) : (s.closeDivision).draws = s.draws := rfl
@[simp] theorem State.closeDivision_drawnPosition (s : State) :
    (s.closeDivision).drawnPosition = s.drawnPosition := rfl
@[simp] theorem State.closeDivision_beaconHeard (s : State) : (s.closeDivision).beaconHeard = s.beaconHeard := rfl
@[simp] theorem State.closeDivision_activityCurrent (s : State) :
    (s.closeDivision).activityCurrent = s.activityCurrent := rfl
@[simp] theorem State.closeDivision_activityPrevious (s : State) :
    (s.closeDivision).activityPrevious = s.activityPrevious := rfl
@[simp] theorem State.closeDivision_reports (s : State) : (s.closeDivision).reports = Reports.empty := rfl
@[simp] theorem State.closeDivision_tx (s : State) : (s.closeDivision).tx = none := rfl
@[simp] theorem State.closeDivision_map (s : State) : (s.closeDivision).map = s.map := rfl
@[simp] theorem State.closeDivision_claimQueue (s : State) : (s.closeDivision).claimQueue = s.claimQueue := rfl
@[simp] theorem State.closeDivision_lanes (s : State) : (s.closeDivision).lanes = s.lanes := rfl
@[simp] theorem State.closeDivision_streams (s : State) : (s.closeDivision).streams = s.streams := rfl
@[simp] theorem State.closeDivision_inTransit (s : State) : (s.closeDivision).inTransit = s.inTransit := rfl
@[simp] theorem State.closeDivision_subs (s : State) : (s.closeDivision).subs = s.subs := rfl
@[simp] theorem State.closeDivision_freeList (s : State) : (s.closeDivision).freeList = s.freeList := rfl
@[simp] theorem State.closeDivision_events (s : State) : (s.closeDivision).events = s.events := rfl
@[simp] theorem State.closeDivision_link (s : State) : (s.closeDivision).link = s.link := rfl
@[simp] theorem State.closeDivision_choices (s : State) : (s.closeDivision).choices = s.choices := rfl

/-! ### `State.markActive` -/

@[simp] theorem State.markActive_pending (s : State) (k : SlotNo) : (s.markActive k).pending = s.pending := rfl
@[simp] theorem State.markActive_resetHeld (s : State) (k : SlotNo) : (s.markActive k).resetHeld = s.resetHeld := rfl
@[simp] theorem State.markActive_selectLow (s : State) (k : SlotNo) : (s.markActive k).selectLow = s.selectLow := rfl
@[simp] theorem State.markActive_carrier (s : State) (k : SlotNo) : (s.markActive k).carrier = s.carrier := rfl
@[simp] theorem State.markActive_receiver (s : State) (k : SlotNo) :
    (s.markActive k).receiver = s.receiver := rfl
@[simp] theorem State.markActive_station (s : State) (k : SlotNo) : (s.markActive k).station = s.station := rfl
@[simp] theorem State.markActive_config (s : State) (k : SlotNo) : (s.markActive k).config = s.config := rfl
@[simp] theorem State.markActive_timeline (s : State) (k : SlotNo) : (s.markActive k).timeline = s.timeline := rfl
@[simp] theorem State.markActive_holdover (s : State) (k : SlotNo) : (s.markActive k).holdover = s.holdover := rfl
@[simp] theorem State.markActive_settle (s : State) (k : SlotNo) : (s.markActive k).settle = s.settle := rfl
@[simp] theorem State.markActive_listenTimer (s : State) (k : SlotNo) :
    (s.markActive k).listenTimer = s.listenTimer := rfl
@[simp] theorem State.markActive_sessionFlag (s : State) (k : SlotNo) :
    (s.markActive k).sessionFlag = s.sessionFlag := rfl
@[simp] theorem State.markActive_counters (s : State) (k : SlotNo) : (s.markActive k).counters = s.counters := rfl
@[simp] theorem State.markActive_draws (s : State) (k : SlotNo) : (s.markActive k).draws = s.draws := rfl
@[simp] theorem State.markActive_drawnPosition (s : State) (k : SlotNo) :
    (s.markActive k).drawnPosition = s.drawnPosition := rfl
@[simp] theorem State.markActive_beaconHeard (s : State) (k : SlotNo) :
    (s.markActive k).beaconHeard = s.beaconHeard := rfl
@[simp] theorem State.markActive_activityCurrent (s : State) (k : SlotNo) :
    (s.markActive k).activityCurrent = s.activityCurrent.set k true := rfl
@[simp] theorem State.markActive_activityPrevious (s : State) (k : SlotNo) :
    (s.markActive k).activityPrevious = s.activityPrevious := rfl
@[simp] theorem State.markActive_reports (s : State) (k : SlotNo) : (s.markActive k).reports = s.reports := rfl
@[simp] theorem State.markActive_tx (s : State) (k : SlotNo) : (s.markActive k).tx = s.tx := rfl
@[simp] theorem State.markActive_map (s : State) (k : SlotNo) : (s.markActive k).map = s.map := rfl
@[simp] theorem State.markActive_claimQueue (s : State) (k : SlotNo) :
    (s.markActive k).claimQueue = s.claimQueue := rfl
@[simp] theorem State.markActive_lanes (s : State) (k : SlotNo) : (s.markActive k).lanes = s.lanes := rfl
@[simp] theorem State.markActive_streams (s : State) (k : SlotNo) : (s.markActive k).streams = s.streams := rfl
@[simp] theorem State.markActive_inTransit (s : State) (k : SlotNo) : (s.markActive k).inTransit = s.inTransit := rfl
@[simp] theorem State.markActive_subs (s : State) (k : SlotNo) : (s.markActive k).subs = s.subs := rfl
@[simp] theorem State.markActive_freeList (s : State) (k : SlotNo) :
    (s.markActive k).freeList = s.freeList := rfl
@[simp] theorem State.markActive_events (s : State) (k : SlotNo) : (s.markActive k).events = s.events := rfl
@[simp] theorem State.markActive_link (s : State) (k : SlotNo) : (s.markActive k).link = s.link := rfl
@[simp] theorem State.markActive_choices (s : State) (k : SlotNo) : (s.markActive k).choices = s.choices := rfl

/-! ### `State.clearActivity` -/

@[simp] theorem State.clearActivity_pending (s : State) : (s.clearActivity).pending = s.pending := rfl
@[simp] theorem State.clearActivity_resetHeld (s : State) : (s.clearActivity).resetHeld = s.resetHeld := rfl
@[simp] theorem State.clearActivity_selectLow (s : State) : (s.clearActivity).selectLow = s.selectLow := rfl
@[simp] theorem State.clearActivity_carrier (s : State) : (s.clearActivity).carrier = s.carrier := rfl
@[simp] theorem State.clearActivity_receiver (s : State) : (s.clearActivity).receiver = s.receiver := rfl
@[simp] theorem State.clearActivity_station (s : State) : (s.clearActivity).station = s.station := rfl
@[simp] theorem State.clearActivity_config (s : State) : (s.clearActivity).config = s.config := rfl
@[simp] theorem State.clearActivity_timeline (s : State) : (s.clearActivity).timeline = s.timeline := rfl
@[simp] theorem State.clearActivity_holdover (s : State) : (s.clearActivity).holdover = s.holdover := rfl
@[simp] theorem State.clearActivity_settle (s : State) : (s.clearActivity).settle = s.settle := rfl
@[simp] theorem State.clearActivity_listenTimer (s : State) : (s.clearActivity).listenTimer = s.listenTimer := rfl
@[simp] theorem State.clearActivity_sessionFlag (s : State) : (s.clearActivity).sessionFlag = s.sessionFlag := rfl
@[simp] theorem State.clearActivity_counters (s : State) : (s.clearActivity).counters = s.counters := rfl
@[simp] theorem State.clearActivity_draws (s : State) : (s.clearActivity).draws = s.draws := rfl
@[simp] theorem State.clearActivity_drawnPosition (s : State) :
    (s.clearActivity).drawnPosition = s.drawnPosition := rfl
@[simp] theorem State.clearActivity_beaconHeard (s : State) : (s.clearActivity).beaconHeard = s.beaconHeard := rfl
@[simp] theorem State.clearActivity_activityCurrent (s : State) : (s.clearActivity).activityCurrent = noSlots := rfl
@[simp] theorem State.clearActivity_activityPrevious (s : State) : (s.clearActivity).activityPrevious = noSlots := rfl
@[simp] theorem State.clearActivity_reports (s : State) : (s.clearActivity).reports = s.reports := rfl
@[simp] theorem State.clearActivity_tx (s : State) : (s.clearActivity).tx = s.tx := rfl
@[simp] theorem State.clearActivity_map (s : State) : (s.clearActivity).map = s.map := rfl
@[simp] theorem State.clearActivity_claimQueue (s : State) : (s.clearActivity).claimQueue = s.claimQueue := rfl
@[simp] theorem State.clearActivity_lanes (s : State) : (s.clearActivity).lanes = s.lanes := rfl
@[simp] theorem State.clearActivity_streams (s : State) : (s.clearActivity).streams = s.streams := rfl
@[simp] theorem State.clearActivity_inTransit (s : State) : (s.clearActivity).inTransit = s.inTransit := rfl
@[simp] theorem State.clearActivity_subs (s : State) : (s.clearActivity).subs = s.subs := rfl
@[simp] theorem State.clearActivity_freeList (s : State) : (s.clearActivity).freeList = s.freeList := rfl
@[simp] theorem State.clearActivity_events (s : State) : (s.clearActivity).events = s.events := rfl
@[simp] theorem State.clearActivity_link (s : State) : (s.clearActivity).link = s.link := rfl
@[simp] theorem State.clearActivity_choices (s : State) : (s.clearActivity).choices = s.choices := rfl

/-! ### `State.rotateActivity` -/

@[simp] theorem State.rotateActivity_pending (s : State) : (s.rotateActivity).pending = s.pending := rfl
@[simp] theorem State.rotateActivity_resetHeld (s : State) : (s.rotateActivity).resetHeld = s.resetHeld := rfl
@[simp] theorem State.rotateActivity_selectLow (s : State) : (s.rotateActivity).selectLow = s.selectLow := rfl
@[simp] theorem State.rotateActivity_carrier (s : State) : (s.rotateActivity).carrier = s.carrier := rfl
@[simp] theorem State.rotateActivity_receiver (s : State) : (s.rotateActivity).receiver = s.receiver := rfl
@[simp] theorem State.rotateActivity_station (s : State) : (s.rotateActivity).station = s.station := rfl
@[simp] theorem State.rotateActivity_config (s : State) : (s.rotateActivity).config = s.config := rfl
@[simp] theorem State.rotateActivity_timeline (s : State) : (s.rotateActivity).timeline = s.timeline := rfl
@[simp] theorem State.rotateActivity_holdover (s : State) : (s.rotateActivity).holdover = s.holdover := rfl
@[simp] theorem State.rotateActivity_settle (s : State) : (s.rotateActivity).settle = s.settle := rfl
@[simp] theorem State.rotateActivity_listenTimer (s : State) : (s.rotateActivity).listenTimer = s.listenTimer := rfl
@[simp] theorem State.rotateActivity_sessionFlag (s : State) : (s.rotateActivity).sessionFlag = s.sessionFlag := rfl
@[simp] theorem State.rotateActivity_counters (s : State) : (s.rotateActivity).counters = s.counters := rfl
@[simp] theorem State.rotateActivity_draws (s : State) : (s.rotateActivity).draws = s.draws := rfl
@[simp] theorem State.rotateActivity_drawnPosition (s : State) :
    (s.rotateActivity).drawnPosition = s.drawnPosition := rfl
@[simp] theorem State.rotateActivity_beaconHeard (s : State) : (s.rotateActivity).beaconHeard = s.beaconHeard := rfl
@[simp] theorem State.rotateActivity_activityCurrent (s : State) : (s.rotateActivity).activityCurrent = noSlots := rfl
@[simp] theorem State.rotateActivity_activityPrevious (s : State) :
    (s.rotateActivity).activityPrevious = s.activityCurrent := rfl
@[simp] theorem State.rotateActivity_reports (s : State) : (s.rotateActivity).reports = s.reports := rfl
@[simp] theorem State.rotateActivity_tx (s : State) : (s.rotateActivity).tx = s.tx := rfl
@[simp] theorem State.rotateActivity_map (s : State) : (s.rotateActivity).map = s.map := rfl
@[simp] theorem State.rotateActivity_claimQueue (s : State) : (s.rotateActivity).claimQueue = s.claimQueue := rfl
@[simp] theorem State.rotateActivity_lanes (s : State) : (s.rotateActivity).lanes = s.lanes := rfl
@[simp] theorem State.rotateActivity_streams (s : State) : (s.rotateActivity).streams = s.streams := rfl
@[simp] theorem State.rotateActivity_inTransit (s : State) : (s.rotateActivity).inTransit = s.inTransit := rfl
@[simp] theorem State.rotateActivity_subs (s : State) : (s.rotateActivity).subs = s.subs := rfl
@[simp] theorem State.rotateActivity_freeList (s : State) : (s.rotateActivity).freeList = s.freeList := rfl
@[simp] theorem State.rotateActivity_events (s : State) : (s.rotateActivity).events = s.events := rfl
@[simp] theorem State.rotateActivity_link (s : State) : (s.rotateActivity).link = s.link := rfl
@[simp] theorem State.rotateActivity_choices (s : State) : (s.rotateActivity).choices = s.choices := rfl

/-! ### `State.emptyClaims` -/

@[simp] theorem State.emptyClaims_pending (s : State) : (s.emptyClaims).pending = s.pending := rfl
@[simp] theorem State.emptyClaims_resetHeld (s : State) : (s.emptyClaims).resetHeld = s.resetHeld := rfl
@[simp] theorem State.emptyClaims_selectLow (s : State) : (s.emptyClaims).selectLow = s.selectLow := rfl
@[simp] theorem State.emptyClaims_carrier (s : State) : (s.emptyClaims).carrier = s.carrier := rfl
@[simp] theorem State.emptyClaims_receiver (s : State) : (s.emptyClaims).receiver = s.receiver := rfl
@[simp] theorem State.emptyClaims_station (s : State) : (s.emptyClaims).station = s.station := rfl
@[simp] theorem State.emptyClaims_config (s : State) : (s.emptyClaims).config = s.config := rfl
@[simp] theorem State.emptyClaims_timeline (s : State) : (s.emptyClaims).timeline = s.timeline := rfl
@[simp] theorem State.emptyClaims_holdover (s : State) : (s.emptyClaims).holdover = s.holdover := rfl
@[simp] theorem State.emptyClaims_settle (s : State) : (s.emptyClaims).settle = s.settle := rfl
@[simp] theorem State.emptyClaims_listenTimer (s : State) : (s.emptyClaims).listenTimer = s.listenTimer := rfl
@[simp] theorem State.emptyClaims_sessionFlag (s : State) : (s.emptyClaims).sessionFlag = s.sessionFlag := rfl
@[simp] theorem State.emptyClaims_counters (s : State) : (s.emptyClaims).counters = s.counters := rfl
@[simp] theorem State.emptyClaims_draws (s : State) : (s.emptyClaims).draws = s.draws := rfl
@[simp] theorem State.emptyClaims_drawnPosition (s : State) : (s.emptyClaims).drawnPosition = s.drawnPosition := rfl
@[simp] theorem State.emptyClaims_beaconHeard (s : State) : (s.emptyClaims).beaconHeard = s.beaconHeard := rfl
@[simp] theorem State.emptyClaims_activityCurrent (s : State) :
    (s.emptyClaims).activityCurrent = s.activityCurrent := rfl
@[simp] theorem State.emptyClaims_activityPrevious (s : State) :
    (s.emptyClaims).activityPrevious = s.activityPrevious := rfl
@[simp] theorem State.emptyClaims_reports (s : State) : (s.emptyClaims).reports = s.reports := rfl
@[simp] theorem State.emptyClaims_tx (s : State) : (s.emptyClaims).tx = s.tx := rfl
@[simp] theorem State.emptyClaims_map (s : State) : (s.emptyClaims).map = s.map := rfl
@[simp] theorem State.emptyClaims_claimQueue (s : State) : (s.emptyClaims).claimQueue = [] := rfl
@[simp] theorem State.emptyClaims_lanes (s : State) : (s.emptyClaims).lanes = Vector.replicate 2 none := rfl
@[simp] theorem State.emptyClaims_streams (s : State) : (s.emptyClaims).streams = s.streams := rfl
@[simp] theorem State.emptyClaims_inTransit (s : State) : (s.emptyClaims).inTransit = s.inTransit := rfl
@[simp] theorem State.emptyClaims_subs (s : State) : (s.emptyClaims).subs = s.subs := rfl
@[simp] theorem State.emptyClaims_freeList (s : State) : (s.emptyClaims).freeList = s.freeList := rfl
@[simp] theorem State.emptyClaims_events (s : State) : (s.emptyClaims).events = s.events := rfl
@[simp] theorem State.emptyClaims_link (s : State) : (s.emptyClaims).link = s.link := rfl
@[simp] theorem State.emptyClaims_choices (s : State) : (s.emptyClaims).choices = s.choices := rfl

/-! ### `State.dropEvent` -/

@[simp] theorem State.dropEvent_pending (s : State) : (s.dropEvent).pending = s.pending := rfl
@[simp] theorem State.dropEvent_resetHeld (s : State) : (s.dropEvent).resetHeld = s.resetHeld := rfl
@[simp] theorem State.dropEvent_selectLow (s : State) : (s.dropEvent).selectLow = s.selectLow := rfl
@[simp] theorem State.dropEvent_carrier (s : State) : (s.dropEvent).carrier = s.carrier := rfl
@[simp] theorem State.dropEvent_receiver (s : State) : (s.dropEvent).receiver = s.receiver := rfl
@[simp] theorem State.dropEvent_station (s : State) : (s.dropEvent).station = s.station := rfl
@[simp] theorem State.dropEvent_config (s : State) : (s.dropEvent).config = s.config := rfl
@[simp] theorem State.dropEvent_timeline (s : State) : (s.dropEvent).timeline = s.timeline := rfl
@[simp] theorem State.dropEvent_holdover (s : State) : (s.dropEvent).holdover = s.holdover := rfl
@[simp] theorem State.dropEvent_settle (s : State) : (s.dropEvent).settle = s.settle := rfl
@[simp] theorem State.dropEvent_listenTimer (s : State) : (s.dropEvent).listenTimer = s.listenTimer := rfl
@[simp] theorem State.dropEvent_sessionFlag (s : State) : (s.dropEvent).sessionFlag = s.sessionFlag := rfl
@[simp] theorem State.dropEvent_counters (s : State) : (s.dropEvent).counters = s.counters := rfl
@[simp] theorem State.dropEvent_draws (s : State) : (s.dropEvent).draws = s.draws := rfl
@[simp] theorem State.dropEvent_drawnPosition (s : State) : (s.dropEvent).drawnPosition = s.drawnPosition := rfl
@[simp] theorem State.dropEvent_beaconHeard (s : State) : (s.dropEvent).beaconHeard = s.beaconHeard := rfl
@[simp] theorem State.dropEvent_activityCurrent (s : State) : (s.dropEvent).activityCurrent = s.activityCurrent := rfl
@[simp] theorem State.dropEvent_activityPrevious (s : State) :
    (s.dropEvent).activityPrevious = s.activityPrevious := rfl
@[simp] theorem State.dropEvent_reports (s : State) : (s.dropEvent).reports = s.reports := rfl
@[simp] theorem State.dropEvent_tx (s : State) : (s.dropEvent).tx = s.tx := rfl
@[simp] theorem State.dropEvent_map (s : State) : (s.dropEvent).map = s.map := rfl
@[simp] theorem State.dropEvent_claimQueue (s : State) : (s.dropEvent).claimQueue = s.claimQueue := rfl
@[simp] theorem State.dropEvent_lanes (s : State) : (s.dropEvent).lanes = s.lanes := rfl
@[simp] theorem State.dropEvent_streams (s : State) : (s.dropEvent).streams = s.streams := rfl
@[simp] theorem State.dropEvent_inTransit (s : State) : (s.dropEvent).inTransit = s.inTransit := rfl
@[simp] theorem State.dropEvent_subs (s : State) : (s.dropEvent).subs = s.subs := rfl
@[simp] theorem State.dropEvent_freeList (s : State) : (s.dropEvent).freeList = s.freeList := rfl
@[simp] theorem State.dropEvent_events (s : State) : (s.dropEvent).events = s.events.tail := rfl
@[simp] theorem State.dropEvent_link (s : State) : (s.dropEvent).link = s.link := rfl
@[simp] theorem State.dropEvent_choices (s : State) : (s.dropEvent).choices = s.choices := rfl

/-! ### `State.leaveTimeline` -/

@[simp] theorem State.leaveTimeline_pending (s : State) : (s.leaveTimeline).pending = s.pending := rfl
@[simp] theorem State.leaveTimeline_resetHeld (s : State) : (s.leaveTimeline).resetHeld = s.resetHeld := rfl
@[simp] theorem State.leaveTimeline_selectLow (s : State) : (s.leaveTimeline).selectLow = s.selectLow := rfl
@[simp] theorem State.leaveTimeline_carrier (s : State) : (s.leaveTimeline).carrier = s.carrier := rfl
@[simp] theorem State.leaveTimeline_receiver (s : State) : (s.leaveTimeline).receiver = s.receiver := rfl
@[simp] theorem State.leaveTimeline_station (s : State) : (s.leaveTimeline).station = s.station := rfl
@[simp] theorem State.leaveTimeline_config (s : State) : (s.leaveTimeline).config = s.config := rfl
@[simp] theorem State.leaveTimeline_timeline (s : State) : (s.leaveTimeline).timeline = none := rfl
@[simp] theorem State.leaveTimeline_holdover (s : State) : (s.leaveTimeline).holdover = 0 := rfl
@[simp] theorem State.leaveTimeline_settle (s : State) : (s.leaveTimeline).settle = 0 := rfl
@[simp] theorem State.leaveTimeline_listenTimer (s : State) : (s.leaveTimeline).listenTimer = s.listenTimer := rfl
@[simp] theorem State.leaveTimeline_sessionFlag (s : State) : (s.leaveTimeline).sessionFlag = s.sessionFlag := rfl
@[simp] theorem State.leaveTimeline_counters (s : State) : (s.leaveTimeline).counters = s.counters := rfl
@[simp] theorem State.leaveTimeline_draws (s : State) : (s.leaveTimeline).draws = s.draws := rfl
@[simp] theorem State.leaveTimeline_drawnPosition (s : State) : (s.leaveTimeline).drawnPosition = none := rfl
@[simp] theorem State.leaveTimeline_beaconHeard (s : State) : (s.leaveTimeline).beaconHeard = false := rfl
@[simp] theorem State.leaveTimeline_activityCurrent (s : State) :
    (s.leaveTimeline).activityCurrent = s.activityCurrent := rfl
@[simp] theorem State.leaveTimeline_activityPrevious (s : State) :
    (s.leaveTimeline).activityPrevious = s.activityPrevious := rfl
@[simp] theorem State.leaveTimeline_reports (s : State) : (s.leaveTimeline).reports = Reports.empty := rfl
@[simp] theorem State.leaveTimeline_tx (s : State) : (s.leaveTimeline).tx = none := rfl
@[simp] theorem State.leaveTimeline_map (s : State) : (s.leaveTimeline).map = s.map := rfl
@[simp] theorem State.leaveTimeline_claimQueue (s : State) : (s.leaveTimeline).claimQueue = s.claimQueue := rfl
@[simp] theorem State.leaveTimeline_lanes (s : State) : (s.leaveTimeline).lanes = s.lanes := rfl
@[simp] theorem State.leaveTimeline_streams (s : State) : (s.leaveTimeline).streams = s.streams := rfl
@[simp] theorem State.leaveTimeline_inTransit (s : State) : (s.leaveTimeline).inTransit = s.inTransit := rfl
@[simp] theorem State.leaveTimeline_subs (s : State) : (s.leaveTimeline).subs = s.subs := rfl
@[simp] theorem State.leaveTimeline_freeList (s : State) : (s.leaveTimeline).freeList = s.freeList := rfl
@[simp] theorem State.leaveTimeline_events (s : State) : (s.leaveTimeline).events = s.events := rfl
@[simp] theorem State.leaveTimeline_link (s : State) : (s.leaveTimeline).link = s.link := rfl
@[simp] theorem State.leaveTimeline_choices (s : State) : (s.leaveTimeline).choices = s.choices := rfl

/-! ### `State.countCollided` -/

@[simp] theorem State.countCollided_pending (s : State) : (s.countCollided).pending = s.pending := rfl
@[simp] theorem State.countCollided_resetHeld (s : State) : (s.countCollided).resetHeld = s.resetHeld := rfl
@[simp] theorem State.countCollided_selectLow (s : State) : (s.countCollided).selectLow = s.selectLow := rfl
@[simp] theorem State.countCollided_carrier (s : State) : (s.countCollided).carrier = s.carrier := rfl
@[simp] theorem State.countCollided_receiver (s : State) : (s.countCollided).receiver = s.receiver := rfl
@[simp] theorem State.countCollided_station (s : State) : (s.countCollided).station = s.station := rfl
@[simp] theorem State.countCollided_config (s : State) : (s.countCollided).config = s.config := rfl
@[simp] theorem State.countCollided_timeline (s : State) : (s.countCollided).timeline = s.timeline := rfl
@[simp] theorem State.countCollided_holdover (s : State) : (s.countCollided).holdover = s.holdover := rfl
@[simp] theorem State.countCollided_settle (s : State) : (s.countCollided).settle = s.settle := rfl
@[simp] theorem State.countCollided_listenTimer (s : State) : (s.countCollided).listenTimer = s.listenTimer := rfl
@[simp] theorem State.countCollided_sessionFlag (s : State) : (s.countCollided).sessionFlag = s.sessionFlag := rfl
@[simp] theorem State.countCollided_counters (s : State) :
    (s.countCollided).counters = { s.counters with collidedSlots := bump s.counters.collidedSlots } := rfl
@[simp] theorem State.countCollided_draws (s : State) : (s.countCollided).draws = s.draws := rfl
@[simp] theorem State.countCollided_drawnPosition (s : State) :
    (s.countCollided).drawnPosition = s.drawnPosition := rfl
@[simp] theorem State.countCollided_beaconHeard (s : State) : (s.countCollided).beaconHeard = s.beaconHeard := rfl
@[simp] theorem State.countCollided_activityCurrent (s : State) :
    (s.countCollided).activityCurrent = s.activityCurrent := rfl
@[simp] theorem State.countCollided_activityPrevious (s : State) :
    (s.countCollided).activityPrevious = s.activityPrevious := rfl
@[simp] theorem State.countCollided_reports (s : State) : (s.countCollided).reports = s.reports := rfl
@[simp] theorem State.countCollided_tx (s : State) : (s.countCollided).tx = s.tx := rfl
@[simp] theorem State.countCollided_map (s : State) : (s.countCollided).map = s.map := rfl
@[simp] theorem State.countCollided_claimQueue (s : State) : (s.countCollided).claimQueue = s.claimQueue := rfl
@[simp] theorem State.countCollided_lanes (s : State) : (s.countCollided).lanes = s.lanes := rfl
@[simp] theorem State.countCollided_streams (s : State) : (s.countCollided).streams = s.streams := rfl
@[simp] theorem State.countCollided_inTransit (s : State) : (s.countCollided).inTransit = s.inTransit := rfl
@[simp] theorem State.countCollided_subs (s : State) : (s.countCollided).subs = s.subs := rfl
@[simp] theorem State.countCollided_freeList (s : State) : (s.countCollided).freeList = s.freeList := rfl
@[simp] theorem State.countCollided_events (s : State) : (s.countCollided).events = s.events := rfl
@[simp] theorem State.countCollided_link (s : State) : (s.countCollided).link = s.link := rfl
@[simp] theorem State.countCollided_choices (s : State) : (s.countCollided).choices = s.choices := rfl

/-! ### `State.countDamaged` -/

@[simp] theorem State.countDamaged_pending (s : State) : (s.countDamaged).pending = s.pending := rfl
@[simp] theorem State.countDamaged_resetHeld (s : State) : (s.countDamaged).resetHeld = s.resetHeld := rfl
@[simp] theorem State.countDamaged_selectLow (s : State) : (s.countDamaged).selectLow = s.selectLow := rfl
@[simp] theorem State.countDamaged_carrier (s : State) : (s.countDamaged).carrier = s.carrier := rfl
@[simp] theorem State.countDamaged_receiver (s : State) : (s.countDamaged).receiver = s.receiver := rfl
@[simp] theorem State.countDamaged_station (s : State) : (s.countDamaged).station = s.station := rfl
@[simp] theorem State.countDamaged_config (s : State) : (s.countDamaged).config = s.config := rfl
@[simp] theorem State.countDamaged_timeline (s : State) : (s.countDamaged).timeline = s.timeline := rfl
@[simp] theorem State.countDamaged_holdover (s : State) : (s.countDamaged).holdover = s.holdover := rfl
@[simp] theorem State.countDamaged_settle (s : State) : (s.countDamaged).settle = s.settle := rfl
@[simp] theorem State.countDamaged_listenTimer (s : State) : (s.countDamaged).listenTimer = s.listenTimer := rfl
@[simp] theorem State.countDamaged_sessionFlag (s : State) : (s.countDamaged).sessionFlag = s.sessionFlag := rfl
@[simp] theorem State.countDamaged_counters (s : State) :
    (s.countDamaged).counters = { s.counters with damagedSlots := bump s.counters.damagedSlots } := rfl
@[simp] theorem State.countDamaged_draws (s : State) : (s.countDamaged).draws = s.draws := rfl
@[simp] theorem State.countDamaged_drawnPosition (s : State) : (s.countDamaged).drawnPosition = s.drawnPosition := rfl
@[simp] theorem State.countDamaged_beaconHeard (s : State) : (s.countDamaged).beaconHeard = s.beaconHeard := rfl
@[simp] theorem State.countDamaged_activityCurrent (s : State) :
    (s.countDamaged).activityCurrent = s.activityCurrent := rfl
@[simp] theorem State.countDamaged_activityPrevious (s : State) :
    (s.countDamaged).activityPrevious = s.activityPrevious := rfl
@[simp] theorem State.countDamaged_reports (s : State) : (s.countDamaged).reports = s.reports := rfl
@[simp] theorem State.countDamaged_tx (s : State) : (s.countDamaged).tx = s.tx := rfl
@[simp] theorem State.countDamaged_map (s : State) : (s.countDamaged).map = s.map := rfl
@[simp] theorem State.countDamaged_claimQueue (s : State) : (s.countDamaged).claimQueue = s.claimQueue := rfl
@[simp] theorem State.countDamaged_lanes (s : State) : (s.countDamaged).lanes = s.lanes := rfl
@[simp] theorem State.countDamaged_streams (s : State) : (s.countDamaged).streams = s.streams := rfl
@[simp] theorem State.countDamaged_inTransit (s : State) : (s.countDamaged).inTransit = s.inTransit := rfl
@[simp] theorem State.countDamaged_subs (s : State) : (s.countDamaged).subs = s.subs := rfl
@[simp] theorem State.countDamaged_freeList (s : State) : (s.countDamaged).freeList = s.freeList := rfl
@[simp] theorem State.countDamaged_events (s : State) : (s.countDamaged).events = s.events := rfl
@[simp] theorem State.countDamaged_link (s : State) : (s.countDamaged).link = s.link := rfl
@[simp] theorem State.countDamaged_choices (s : State) : (s.countDamaged).choices = s.choices := rfl

/-! ### `State.countCleanBeacon` -/

@[simp] theorem State.countCleanBeacon_pending (s : State) : (s.countCleanBeacon).pending = s.pending := rfl
@[simp] theorem State.countCleanBeacon_resetHeld (s : State) : (s.countCleanBeacon).resetHeld = s.resetHeld := rfl
@[simp] theorem State.countCleanBeacon_selectLow (s : State) : (s.countCleanBeacon).selectLow = s.selectLow := rfl
@[simp] theorem State.countCleanBeacon_carrier (s : State) : (s.countCleanBeacon).carrier = s.carrier := rfl
@[simp] theorem State.countCleanBeacon_receiver (s : State) :
    (s.countCleanBeacon).receiver = s.receiver := rfl
@[simp] theorem State.countCleanBeacon_station (s : State) : (s.countCleanBeacon).station = s.station := rfl
@[simp] theorem State.countCleanBeacon_config (s : State) : (s.countCleanBeacon).config = s.config := rfl
@[simp] theorem State.countCleanBeacon_timeline (s : State) : (s.countCleanBeacon).timeline = s.timeline := rfl
@[simp] theorem State.countCleanBeacon_holdover (s : State) : (s.countCleanBeacon).holdover = s.holdover := rfl
@[simp] theorem State.countCleanBeacon_settle (s : State) : (s.countCleanBeacon).settle = s.settle := rfl
@[simp] theorem State.countCleanBeacon_listenTimer (s : State) :
    (s.countCleanBeacon).listenTimer = s.listenTimer := rfl
@[simp] theorem State.countCleanBeacon_sessionFlag (s : State) :
    (s.countCleanBeacon).sessionFlag = s.sessionFlag := rfl
@[simp] theorem State.countCleanBeacon_counters (s : State) :
    (s.countCleanBeacon).counters = { s.counters with cleanBeacons := bump s.counters.cleanBeacons } := rfl
@[simp] theorem State.countCleanBeacon_draws (s : State) : (s.countCleanBeacon).draws = s.draws := rfl
@[simp] theorem State.countCleanBeacon_drawnPosition (s : State) :
    (s.countCleanBeacon).drawnPosition = s.drawnPosition := rfl
@[simp] theorem State.countCleanBeacon_beaconHeard (s : State) :
    (s.countCleanBeacon).beaconHeard = s.beaconHeard := rfl
@[simp] theorem State.countCleanBeacon_activityCurrent (s : State) :
    (s.countCleanBeacon).activityCurrent = s.activityCurrent := rfl
@[simp] theorem State.countCleanBeacon_activityPrevious (s : State) :
    (s.countCleanBeacon).activityPrevious = s.activityPrevious := rfl
@[simp] theorem State.countCleanBeacon_reports (s : State) : (s.countCleanBeacon).reports = s.reports := rfl
@[simp] theorem State.countCleanBeacon_tx (s : State) : (s.countCleanBeacon).tx = s.tx := rfl
@[simp] theorem State.countCleanBeacon_map (s : State) : (s.countCleanBeacon).map = s.map := rfl
@[simp] theorem State.countCleanBeacon_claimQueue (s : State) : (s.countCleanBeacon).claimQueue = s.claimQueue := rfl
@[simp] theorem State.countCleanBeacon_lanes (s : State) : (s.countCleanBeacon).lanes = s.lanes := rfl
@[simp] theorem State.countCleanBeacon_streams (s : State) : (s.countCleanBeacon).streams = s.streams := rfl
@[simp] theorem State.countCleanBeacon_inTransit (s : State) : (s.countCleanBeacon).inTransit = s.inTransit := rfl
@[simp] theorem State.countCleanBeacon_subs (s : State) : (s.countCleanBeacon).subs = s.subs := rfl
@[simp] theorem State.countCleanBeacon_freeList (s : State) :
    (s.countCleanBeacon).freeList = s.freeList := rfl
@[simp] theorem State.countCleanBeacon_events (s : State) : (s.countCleanBeacon).events = s.events := rfl
@[simp] theorem State.countCleanBeacon_link (s : State) : (s.countCleanBeacon).link = s.link := rfl
@[simp] theorem State.countCleanBeacon_choices (s : State) : (s.countCleanBeacon).choices = s.choices := rfl

/-! ### `State.countClash` -/

@[simp] theorem State.countClash_pending (s : State) : (s.countClash).pending = s.pending := rfl
@[simp] theorem State.countClash_resetHeld (s : State) : (s.countClash).resetHeld = s.resetHeld := rfl
@[simp] theorem State.countClash_selectLow (s : State) : (s.countClash).selectLow = s.selectLow := rfl
@[simp] theorem State.countClash_carrier (s : State) : (s.countClash).carrier = s.carrier := rfl
@[simp] theorem State.countClash_receiver (s : State) : (s.countClash).receiver = s.receiver := rfl
@[simp] theorem State.countClash_station (s : State) : (s.countClash).station = s.station := rfl
@[simp] theorem State.countClash_config (s : State) : (s.countClash).config = s.config := rfl
@[simp] theorem State.countClash_timeline (s : State) : (s.countClash).timeline = s.timeline := rfl
@[simp] theorem State.countClash_holdover (s : State) : (s.countClash).holdover = s.holdover := rfl
@[simp] theorem State.countClash_settle (s : State) : (s.countClash).settle = s.settle := rfl
@[simp] theorem State.countClash_listenTimer (s : State) : (s.countClash).listenTimer = s.listenTimer := rfl
@[simp] theorem State.countClash_sessionFlag (s : State) : (s.countClash).sessionFlag = s.sessionFlag := rfl
@[simp] theorem State.countClash_counters (s : State) :
    (s.countClash).counters = { s.counters with beaconClashes := bump s.counters.beaconClashes } := rfl
@[simp] theorem State.countClash_draws (s : State) : (s.countClash).draws = s.draws := rfl
@[simp] theorem State.countClash_drawnPosition (s : State) : (s.countClash).drawnPosition = s.drawnPosition := rfl
@[simp] theorem State.countClash_beaconHeard (s : State) : (s.countClash).beaconHeard = s.beaconHeard := rfl
@[simp] theorem State.countClash_activityCurrent (s : State) :
    (s.countClash).activityCurrent = s.activityCurrent := rfl
@[simp] theorem State.countClash_activityPrevious (s : State) :
    (s.countClash).activityPrevious = s.activityPrevious := rfl
@[simp] theorem State.countClash_reports (s : State) : (s.countClash).reports = s.reports := rfl
@[simp] theorem State.countClash_tx (s : State) : (s.countClash).tx = s.tx := rfl
@[simp] theorem State.countClash_map (s : State) : (s.countClash).map = s.map := rfl
@[simp] theorem State.countClash_claimQueue (s : State) : (s.countClash).claimQueue = s.claimQueue := rfl
@[simp] theorem State.countClash_lanes (s : State) : (s.countClash).lanes = s.lanes := rfl
@[simp] theorem State.countClash_streams (s : State) : (s.countClash).streams = s.streams := rfl
@[simp] theorem State.countClash_inTransit (s : State) : (s.countClash).inTransit = s.inTransit := rfl
@[simp] theorem State.countClash_subs (s : State) : (s.countClash).subs = s.subs := rfl
@[simp] theorem State.countClash_freeList (s : State) : (s.countClash).freeList = s.freeList := rfl
@[simp] theorem State.countClash_events (s : State) : (s.countClash).events = s.events := rfl
@[simp] theorem State.countClash_link (s : State) : (s.countClash).link = s.link := rfl
@[simp] theorem State.countClash_choices (s : State) : (s.countClash).choices = s.choices := rfl

/-! ### `State.countSlip` -/

@[simp] theorem State.countSlip_pending (s : State) : (s.countSlip).pending = s.pending := rfl
@[simp] theorem State.countSlip_resetHeld (s : State) : (s.countSlip).resetHeld = s.resetHeld := rfl
@[simp] theorem State.countSlip_selectLow (s : State) : (s.countSlip).selectLow = s.selectLow := rfl
@[simp] theorem State.countSlip_carrier (s : State) : (s.countSlip).carrier = s.carrier := rfl
@[simp] theorem State.countSlip_receiver (s : State) : (s.countSlip).receiver = s.receiver := rfl
@[simp] theorem State.countSlip_station (s : State) : (s.countSlip).station = s.station := rfl
@[simp] theorem State.countSlip_config (s : State) : (s.countSlip).config = s.config := rfl
@[simp] theorem State.countSlip_timeline (s : State) : (s.countSlip).timeline = s.timeline := rfl
@[simp] theorem State.countSlip_holdover (s : State) : (s.countSlip).holdover = s.holdover := rfl
@[simp] theorem State.countSlip_settle (s : State) : (s.countSlip).settle = s.settle := rfl
@[simp] theorem State.countSlip_listenTimer (s : State) : (s.countSlip).listenTimer = s.listenTimer := rfl
@[simp] theorem State.countSlip_sessionFlag (s : State) : (s.countSlip).sessionFlag = s.sessionFlag := rfl
@[simp] theorem State.countSlip_counters (s : State) :
    (s.countSlip).counters = { s.counters with cycleSlips := bump s.counters.cycleSlips } := rfl
@[simp] theorem State.countSlip_draws (s : State) : (s.countSlip).draws = s.draws := rfl
@[simp] theorem State.countSlip_drawnPosition (s : State) : (s.countSlip).drawnPosition = s.drawnPosition := rfl
@[simp] theorem State.countSlip_beaconHeard (s : State) : (s.countSlip).beaconHeard = s.beaconHeard := rfl
@[simp] theorem State.countSlip_activityCurrent (s : State) : (s.countSlip).activityCurrent = s.activityCurrent := rfl
@[simp] theorem State.countSlip_activityPrevious (s : State) :
    (s.countSlip).activityPrevious = s.activityPrevious := rfl
@[simp] theorem State.countSlip_reports (s : State) : (s.countSlip).reports = s.reports := rfl
@[simp] theorem State.countSlip_tx (s : State) : (s.countSlip).tx = s.tx := rfl
@[simp] theorem State.countSlip_map (s : State) : (s.countSlip).map = s.map := rfl
@[simp] theorem State.countSlip_claimQueue (s : State) : (s.countSlip).claimQueue = s.claimQueue := rfl
@[simp] theorem State.countSlip_lanes (s : State) : (s.countSlip).lanes = s.lanes := rfl
@[simp] theorem State.countSlip_streams (s : State) : (s.countSlip).streams = s.streams := rfl
@[simp] theorem State.countSlip_inTransit (s : State) : (s.countSlip).inTransit = s.inTransit := rfl
@[simp] theorem State.countSlip_subs (s : State) : (s.countSlip).subs = s.subs := rfl
@[simp] theorem State.countSlip_freeList (s : State) : (s.countSlip).freeList = s.freeList := rfl
@[simp] theorem State.countSlip_events (s : State) : (s.countSlip).events = s.events := rfl
@[simp] theorem State.countSlip_link (s : State) : (s.countSlip).link = s.link := rfl
@[simp] theorem State.countSlip_choices (s : State) : (s.countSlip).choices = s.choices := rfl

/-! ### `State.countForeign` -/

@[simp] theorem State.countForeign_pending (s : State) : (s.countForeign).pending = s.pending := rfl
@[simp] theorem State.countForeign_resetHeld (s : State) : (s.countForeign).resetHeld = s.resetHeld := rfl
@[simp] theorem State.countForeign_selectLow (s : State) : (s.countForeign).selectLow = s.selectLow := rfl
@[simp] theorem State.countForeign_carrier (s : State) : (s.countForeign).carrier = s.carrier := rfl
@[simp] theorem State.countForeign_receiver (s : State) : (s.countForeign).receiver = s.receiver := rfl
@[simp] theorem State.countForeign_station (s : State) : (s.countForeign).station = s.station := rfl
@[simp] theorem State.countForeign_config (s : State) : (s.countForeign).config = s.config := rfl
@[simp] theorem State.countForeign_timeline (s : State) : (s.countForeign).timeline = s.timeline := rfl
@[simp] theorem State.countForeign_holdover (s : State) : (s.countForeign).holdover = s.holdover := rfl
@[simp] theorem State.countForeign_settle (s : State) : (s.countForeign).settle = s.settle := rfl
@[simp] theorem State.countForeign_listenTimer (s : State) : (s.countForeign).listenTimer = s.listenTimer := rfl
@[simp] theorem State.countForeign_sessionFlag (s : State) : (s.countForeign).sessionFlag = s.sessionFlag := rfl
@[simp] theorem State.countForeign_counters (s : State) :
    (s.countForeign).counters = { s.counters with foreignIgnored := bump s.counters.foreignIgnored } := rfl
@[simp] theorem State.countForeign_draws (s : State) : (s.countForeign).draws = s.draws := rfl
@[simp] theorem State.countForeign_drawnPosition (s : State) : (s.countForeign).drawnPosition = s.drawnPosition := rfl
@[simp] theorem State.countForeign_beaconHeard (s : State) : (s.countForeign).beaconHeard = s.beaconHeard := rfl
@[simp] theorem State.countForeign_activityCurrent (s : State) :
    (s.countForeign).activityCurrent = s.activityCurrent := rfl
@[simp] theorem State.countForeign_activityPrevious (s : State) :
    (s.countForeign).activityPrevious = s.activityPrevious := rfl
@[simp] theorem State.countForeign_reports (s : State) : (s.countForeign).reports = s.reports := rfl
@[simp] theorem State.countForeign_tx (s : State) : (s.countForeign).tx = s.tx := rfl
@[simp] theorem State.countForeign_map (s : State) : (s.countForeign).map = s.map := rfl
@[simp] theorem State.countForeign_claimQueue (s : State) : (s.countForeign).claimQueue = s.claimQueue := rfl
@[simp] theorem State.countForeign_lanes (s : State) : (s.countForeign).lanes = s.lanes := rfl
@[simp] theorem State.countForeign_streams (s : State) : (s.countForeign).streams = s.streams := rfl
@[simp] theorem State.countForeign_inTransit (s : State) : (s.countForeign).inTransit = s.inTransit := rfl
@[simp] theorem State.countForeign_subs (s : State) : (s.countForeign).subs = s.subs := rfl
@[simp] theorem State.countForeign_freeList (s : State) : (s.countForeign).freeList = s.freeList := rfl
@[simp] theorem State.countForeign_events (s : State) : (s.countForeign).events = s.events := rfl
@[simp] theorem State.countForeign_link (s : State) : (s.countForeign).link = s.link := rfl
@[simp] theorem State.countForeign_choices (s : State) : (s.countForeign).choices = s.choices := rfl

/-! ### `State.countDrop` -/

@[simp] theorem State.countDrop_pending (s : State) : (s.countDrop).pending = s.pending := rfl
@[simp] theorem State.countDrop_resetHeld (s : State) : (s.countDrop).resetHeld = s.resetHeld := rfl
@[simp] theorem State.countDrop_selectLow (s : State) : (s.countDrop).selectLow = s.selectLow := rfl
@[simp] theorem State.countDrop_carrier (s : State) : (s.countDrop).carrier = s.carrier := rfl
@[simp] theorem State.countDrop_receiver (s : State) : (s.countDrop).receiver = s.receiver := rfl
@[simp] theorem State.countDrop_station (s : State) : (s.countDrop).station = s.station := rfl
@[simp] theorem State.countDrop_config (s : State) : (s.countDrop).config = s.config := rfl
@[simp] theorem State.countDrop_timeline (s : State) : (s.countDrop).timeline = s.timeline := rfl
@[simp] theorem State.countDrop_holdover (s : State) : (s.countDrop).holdover = s.holdover := rfl
@[simp] theorem State.countDrop_settle (s : State) : (s.countDrop).settle = s.settle := rfl
@[simp] theorem State.countDrop_listenTimer (s : State) : (s.countDrop).listenTimer = s.listenTimer := rfl
@[simp] theorem State.countDrop_sessionFlag (s : State) : (s.countDrop).sessionFlag = s.sessionFlag := rfl
@[simp] theorem State.countDrop_counters (s : State) :
    (s.countDrop).counters = { s.counters with receiveDrops := bump s.counters.receiveDrops } := rfl
@[simp] theorem State.countDrop_draws (s : State) : (s.countDrop).draws = s.draws := rfl
@[simp] theorem State.countDrop_drawnPosition (s : State) : (s.countDrop).drawnPosition = s.drawnPosition := rfl
@[simp] theorem State.countDrop_beaconHeard (s : State) : (s.countDrop).beaconHeard = s.beaconHeard := rfl
@[simp] theorem State.countDrop_activityCurrent (s : State) : (s.countDrop).activityCurrent = s.activityCurrent := rfl
@[simp] theorem State.countDrop_activityPrevious (s : State) :
    (s.countDrop).activityPrevious = s.activityPrevious := rfl
@[simp] theorem State.countDrop_reports (s : State) : (s.countDrop).reports = s.reports := rfl
@[simp] theorem State.countDrop_tx (s : State) : (s.countDrop).tx = s.tx := rfl
@[simp] theorem State.countDrop_map (s : State) : (s.countDrop).map = s.map := rfl
@[simp] theorem State.countDrop_claimQueue (s : State) : (s.countDrop).claimQueue = s.claimQueue := rfl
@[simp] theorem State.countDrop_lanes (s : State) : (s.countDrop).lanes = s.lanes := rfl
@[simp] theorem State.countDrop_streams (s : State) : (s.countDrop).streams = s.streams := rfl
@[simp] theorem State.countDrop_inTransit (s : State) : (s.countDrop).inTransit = s.inTransit := rfl
@[simp] theorem State.countDrop_subs (s : State) : (s.countDrop).subs = s.subs := rfl
@[simp] theorem State.countDrop_freeList (s : State) : (s.countDrop).freeList = s.freeList := rfl
@[simp] theorem State.countDrop_events (s : State) : (s.countDrop).events = s.events := rfl
@[simp] theorem State.countDrop_link (s : State) : (s.countDrop).link = s.link := rfl
@[simp] theorem State.countDrop_choices (s : State) : (s.countDrop).choices = s.choices := rfl

end Sys2Proof.Machine
end

