-- ==== Sys2Proof/Laws/Ops.lean ====
section
/-! SUPPORT. What each shared operation can do, said once: the rows of a table after an update, an event posted, blocks
counted over the queues, a request, a cycle event, a byte of the host link and the receiver. -/

namespace Sys2Proof.Machine

open Sys2Proof.Safety

/-! ## Rows after an update -/

theorem State.setEntry_get (s : State) (k j : SlotNo) (e : MapEntry) :
    (s.setEntry k e).map[j] = if k = j then e else s.map[j] := by
  simp [Vector.getElem_set, Fin.ext_iff]

theorem State.mapEntries_get (s : State) (f : SlotNo → MapEntry → MapEntry) (j : SlotNo) :
    (s.mapEntries f).map[j] = f j s.map[j] := by
  simp [State.mapEntries]

theorem State.modStream_get (s : State) (i j : StreamNo) (f : Stream → Stream) :
    (s.modStream i f).streams[j] = if i = j then f s.streams[i] else s.streams[j] := by
  simp [Vector.getElem_set, Fin.ext_iff]

theorem State.mapStreams_get (s : State) (f : StreamNo → Stream → Stream) (j : StreamNo) :
    (s.mapStreams f).streams[j] = f j s.streams[j] := by
  simp [State.mapStreams]

theorem State.modSub_get (s : State) (d e : EntryNo) (f : Subscription → Subscription) :
    (s.modSub d f).subs[e] = if d = e then f s.subs[d] else s.subs[e] := by
  simp [Vector.getElem_set, Fin.ext_iff]

theorem State.mapSubs_get (s : State) (f : Subscription → Subscription) (e : EntryNo) :
    (s.mapSubs f).subs[e] = f s.subs[e] := by
  simp [State.mapSubs]

theorem State.setLane_get (s : State) (l m : LaneNo) (r : Option Lane) :
    (s.setLane l r).lanes[m] = if l = m then r else s.lanes[m] := by
  simp [Vector.getElem_set, Fin.ext_iff]

@[simp] theorem State.clearMap_get (s : State) (k : SlotNo) : s.clearMap.map[k] = .unknown 0 :=
  State.mapEntries_get s _ k

theorem State.fillMap_get (s : State) (k : SlotNo) :
    s.fillMap.map[k] = if s.map[k].owned then s.map[k] else .free :=
  State.mapEntries_get s _ k

theorem State.mergeSummary_get (s : State) (summary : SlotFlags) (k : SlotNo) :
    (s.mergeSummary summary).map[k] = if summary[k] then s.map[k].reported else s.map[k] :=
  State.mapEntries_get s _ k

@[simp] theorem State.emptyClaims_lane (s : State) (l : LaneNo) : s.emptyClaims.lanes[l] = none := by
  simp

/-! ## The event queue -/

/-- A posted event leaves the queue as it was, or is appended, or is replaced by OVERFLOW at the tail (R154). -/
theorem enqueueEvent_cases (q : List EventRecord) (r : EventRecord) :
    (enqueueEvent q r = q ∧ ∃ o ∈ q, o.event = .overflow) ∨
    (enqueueEvent q r = q ++ [r] ∧ q.length + 1 < Config.eventRecords ∧ ∀ o ∈ q, o.event ≠ .overflow) ∨
    (enqueueEvent q r = q ++ [{ event := .overflow, cycle := r.cycle }] ∧ Config.eventRecords ≤ q.length + 1 ∧
      ∀ o ∈ q, o.event ≠ .overflow) := by
  unfold enqueueEvent
  split
  · left; simp_all
  · split
    · right; left; simp_all
    · right; right; simp_all

theorem enqueueEvent_prefix (q : List EventRecord) (r : EventRecord) : q <+: enqueueEvent q r := by
  rcases enqueueEvent_cases q r with h | h | h <;> rw [h.1] <;> simp

/-- Posting several events changes the event queue alone. -/
theorem State.postAll_eq (s : State) (es : List Event) :
    s.postAll es = { s with
      events := es.foldl (fun q e => enqueueEvent q { event := e, cycle := s.cycleNumber }) s.events } := by
  induction es generalizing s with
  | nil => rfl
  | cons e es ih =>
    change (s.post e).postAll es = _
    rw [ih]
    rfl

/-! ## Blocks counted over the queues -/

/-- A sum over a list with one place changed. -/
theorem sum_map_set {α : Type} (f : α → Nat) (l : List α) (n : Nat) (a : α) (h : n < l.length) :
    ((l.set n a).map f).sum + f l[n] = (l.map f).sum + f a := by
  induction l generalizing n with
  | nil => simp at h
  | cons b l ih =>
    cases n with
    | zero => simp; omega
    | succ n =>
      have := ih n (by simpa using h)
      simp only [List.set_cons_succ, List.map_cons, List.sum_cons, List.getElem_cons_succ]
      omega

/-- Blocks in transmit queues after one record changes. -/
theorem State.modStream_txQueued (s : State) (i : StreamNo) (f : Stream → Stream) :
    (s.modStream i f).txQueued + s.streams[i].queue.length = s.txQueued + (f s.streams[i]).queue.length := by
  have h := sum_map_set (fun r : Stream => r.queue.length) s.streams.toList i (f s.streams[i]) (by simp)
  simpa [State.txQueued, Vector.toList_set] using h

/-- Blocks in receive queues after one record changes. -/
theorem State.modSub_rxQueued (s : State) (e : EntryNo) (f : Subscription → Subscription) :
    (s.modSub e f).rxQueued + s.subs[e].queue.length = s.rxQueued + (f s.subs[e]).queue.length := by
  have h := sum_map_set (fun r : Subscription => r.queue.length) s.subs.toList e (f s.subs[e]) (by simp)
  simpa [State.rxQueued, Vector.toList_set] using h

/-- A change of every record that keeps each queue's length keeps the blocks in transmit queues. -/
theorem State.mapStreams_txQueued (s : State) (f : StreamNo → Stream → Stream)
    (h : ∀ i : StreamNo, (f i s.streams[i]).queue.length = s.streams[i].queue.length) :
    (s.mapStreams f).txQueued = s.txQueued := by
  unfold State.txQueued
  congr 1
  apply List.ext_getElem (by simp)
  intro n h1 h2
  have hn : n < 8 := by simpa using h2
  simpa [State.mapStreams] using h ⟨n, hn⟩

/-- A change of every record that keeps each queue's length keeps the blocks in receive queues. -/
theorem State.mapSubs_rxQueued (s : State) (f : Subscription → Subscription)
    (h : ∀ r : Subscription, (f r).queue.length = r.queue.length) : (s.mapSubs f).rxQueued = s.rxQueued := by
  unfold State.rxQueued
  congr 1
  apply List.ext_getElem (by simp)
  intro n h1 h2
  simp [State.mapSubs, h]

/-! ## Buffers of the pool -/

/-- The pool gives one of the buffers on its free list, and none exactly where the list is empty (R145, R146). -/
theorem State.givenBuffer_cases (s : State) :
    (s.freeList = [] ∧ s.givenBuffer = none) ∨ ∃ b ∈ s.freeList, s.givenBuffer = some b := by
  unfold State.givenBuffer
  by_cases h : s.freeList = []
  · left; simp [h]
  · right
    have hn : Config.bufferGiven s.choices % s.freeList.length < s.freeList.length :=
      Nat.mod_lt _ (List.length_pos_iff.mpr h)
    exact ⟨_, List.getElem_mem hn, List.getElem?_eq_getElem hn⟩

/-- An allocation takes its buffer off the free list once, and no other. -/
theorem State.allocate_count (s : State) (b c : BufferNo) (h : b ∈ s.freeList) :
    (s.allocate b).freeList.count c + (if c = b then 1 else 0) = s.freeList.count c := by
  rw [State.allocate_freeList, List.count_erase]
  by_cases hc : c = b
  · subst hc
    have := List.count_pos_iff.mpr h
    simp
    omega
  · simp [hc, Ne.symm hc]

/-- How often a buffer stands in transmit queues after one record changes. -/
theorem State.modStream_txBuffers (s : State) (i : StreamNo) (f : Stream → Stream) (b : BufferNo) :
    (s.modStream i f).txBuffers.count b + s.streams[i].buffers.count b =
      s.txBuffers.count b + (f s.streams[i]).buffers.count b := by
  have h := sum_map_set (fun r : Stream => r.buffers.count b) s.streams.toList i (f s.streams[i]) (by simp)
  simpa [State.txBuffers, List.count_flatMap, Vector.toList_set, Function.comp_def] using h

/-- How often a buffer stands in receive queues after one record changes. -/
theorem State.modSub_rxBuffers (s : State) (e : EntryNo) (f : Subscription → Subscription) (b : BufferNo) :
    (s.modSub e f).rxBuffers.count b + s.subs[e].buffers.count b =
      s.rxBuffers.count b + (f s.subs[e]).buffers.count b := by
  have h := sum_map_set (fun r : Subscription => r.buffers.count b) s.subs.toList e (f s.subs[e]) (by simp)
  simpa [State.rxBuffers, List.count_flatMap, Vector.toList_set, Function.comp_def] using h

/-- A change of every record that keeps each queue keeps the buffers in transmit queues. -/
theorem State.mapStreams_txBuffers (s : State) (f : StreamNo → Stream → Stream)
    (h : ∀ i : StreamNo, (f i s.streams[i]).queue = s.streams[i].queue) : (s.mapStreams f).txBuffers = s.txBuffers := by
  unfold State.txBuffers
  rw [List.flatMap_def, List.flatMap_def]
  congr 1
  apply List.ext_getElem (by simp)
  intro n h1 h2
  have hn : n < 8 := by simpa using h2
  simpa [State.mapStreams, Stream.buffers] using congrArg (List.map (·.buffer)) (h ⟨n, hn⟩)

/-- A change of every record that keeps each queue keeps the buffers in receive queues. -/
theorem State.mapSubs_rxBuffers (s : State) (f : Subscription → Subscription)
    (h : ∀ r : Subscription, (f r).queue = r.queue) : (s.mapSubs f).rxBuffers = s.rxBuffers := by
  unfold State.rxBuffers
  rw [List.flatMap_def, List.flatMap_def]
  congr 1
  apply List.ext_getElem (by simp)
  intro n h1 h2
  simp [State.mapSubs, Subscription.buffers, h]

/-! ## Requests, cycle events and bytes -/

/-- A command under the reset input's guard changes nothing or does its work. -/
theorem State.unlessHeld_cases (s : State) (f : State → State) :
    (s.resetHeld = true ∧ s.unlessHeld f = s) ∨ (s.resetHeld = false ∧ s.unlessHeld f = f s) := by
  cases h : s.resetHeld <;> simp [State.unlessHeld, h]

/-- A request command takes its request or changes nothing. -/
theorem State.request_cases (s : State) (code : Byte) (args : List Byte) (serve : State → Reply × State) :
    (s.resetHeld = false ∧ s.link.awaits code args = true ∧ s.request code args serve = s.taken code serve) ∨
    ((s.resetHeld = true ∨ s.link.awaits code args = false) ∧ s.request code args serve = s) := by
  rcases s.unlessHeld_cases (fun s => if s.link.awaits code args then s.taken code serve else s) with h | h
  · right; exact ⟨.inl h.1, h.2⟩
  · cases ha : s.link.awaits code args
    · right; exact ⟨.inr rfl, by rw [State.request, h.2]; simp [ha]⟩
    · left; exact ⟨h.1, rfl, by rw [State.request, h.2]; simp [ha]⟩

/-- A cycle event is due on some timeline and does its work there, or changes nothing. -/
theorem State.atEvent_cases (s : State) (b : Boundary) (f : Timeline → State → State) :
    (∃ t, s.resetHeld = false ∧ s.station.onTimeline = true ∧ s.timeline = some t ∧ t.nextBoundary = b ∧
      s.atEvent b f = f t s) ∨ s.atEvent b f = s := by
  unfold State.atEvent State.unlessHeld State.atBoundary State.running
  cases hh : s.resetHeld
  · cases ho : s.station.onTimeline
    · right; simp [ho]
    · cases ht : s.timeline with
      | none => right; simp [ho, ht]
      | some t =>
        by_cases hb : t.nextBoundary = b
        · left; exact ⟨t, rfl, rfl, rfl, hb, by simp [ho, ht, hb]⟩
        · right; simp [ho, ht, hb]
  · right; simp

/-- A cycle event that is due does its work. -/
theorem State.atEvent_due {s : State} {b : Boundary} {f : Timeline → State → State} {t : Timeline}
    (held : s.resetHeld = false) (on : s.station.onTimeline = true) (h : s.timeline = some t)
    (hb : t.nextBoundary = b) : s.atEvent b f = f t s := by
  simp [State.atEvent, State.unlessHeld, State.atBoundary, State.running, held, on, h, hb]

/-- A request that the link awaits is taken. -/
theorem State.request_taken {s : State} {code : Byte} {args : List Byte} {serve : State → Reply × State}
    (held : s.resetHeld = false) (h : s.link.awaits code args = true) :
    s.request code args serve = s.taken code serve := by
  simp [State.request, State.unlessHeld, held, h]

/-- The pending commit takes the head of one queue, and frees the buffer of a popped block; nothing else moves. -/
theorem State.commit_cases (s : State) (c : Option CommitTarget) :
    s.commit c = s ∨
    (c = some .eventQueue ∧ s.commit c = { s with events := s.events.tail }) ∨
    (∃ e b rest, c = some (.receiveQueue e) ∧ s.subs[e].queue = b :: rest ∧
      s.commit c = { s with
        freeList := s.freeList ++ [b.buffer], subs := s.subs.set e { s.subs[e] with queue := rest } }) := by
  match c with
  | none => left; rfl
  | some .eventQueue => right; left; exact ⟨rfl, rfl⟩
  | some (.receiveQueue e) =>
    match h : s.subs[e].queue with
    | [] => left; simp only [State.commit, State.popHead, h]
    | b :: rest =>
      right; right
      exact ⟨e, b, rest, rfl, h, by simp only [State.commit, State.popHead, h]; rfl⟩

/-- What a byte can do (R162, R164): move the phase alone, take a request, reset the part, or end the transaction with
its commit. -/
theorem State.takeByte_cases (s : State) (b : Byte) :
    (∃ l, s.takeByte b = { s with link := l }) ∨
    (∃ code serve, s.takeByte b = s.taken code serve ∧
      (serve = State.unknownRequest ∨ ∃ (c : RequestCode) (args : List Byte), serve = c.serve args)) ∨
    (b = 0x1F ∧ s.takeByte b = s.deviceReset) ∨
    (∃ t n, s.link = .response t n ∧ t.response.length ≤ n + 1 ∧ s.takeByte b = s.finishTransaction t) := by
  unfold State.takeByte
  split
  · left; exact ⟨s.link, rfl⟩
  · left; exact ⟨s.link, rfl⟩
  · split
    · right; left; exact ⟨b, _, rfl, .inl rfl⟩
    · rename_i h
      right; right; left
      refine ⟨?_, rfl⟩
      unfold RequestCode.ofByte at h
      split at h <;> simp_all
      rename_i hb
      exact BitVec.eq_of_toNat_eq hb
    · split
      · right; left; exact ⟨b, _, rfl, .inr ⟨_, _, rfl⟩⟩
      · left; exact ⟨_, rfl⟩
  · split
    · left; exact ⟨s.link, rfl⟩
    · split
      · left; exact ⟨_, rfl⟩
      · right; left; exact ⟨_, _, rfl, .inr ⟨_, _, rfl⟩⟩
  · left; exact ⟨_, rfl⟩
  · split <;> (left; exact ⟨_, rfl⟩)
  · rename_i t n h
    split
    · left; exact ⟨_, rfl⟩
    · right; right; right; exact ⟨t, n, h, by omega, rfl⟩

/-! ## The receiver (R17) -/

/-- The receiver misses the frames that `Missed` says. -/
theorem Receiver.misses_iff (r : Receiver) (firstBit lastBit : Time) :
    r.misses firstBit lastBit = true ↔ Missed r firstBit lastBit := by
  cases r <;> simp [Receiver.misses, Missed]

/-- A report in LISTEN bounds the moment that `heardBy` says. -/
theorem Receiver.reaches_eq (r : Receiver) (time : Time) : r.reaches time = heardBy r time := by cases r <;> rfl

theorem State.hears_listen (s : State) (time : Time) (h : s.station = .listen) :
    s.hears time = { s with receiver := heardBy s.receiver time } := by
  simp [State.hears, h, Receiver.reaches_eq]

theorem State.hears_of_ne (s : State) (time : Time) (h : s.station ≠ .listen) : s.hears time = s := by
  simp [State.hears, h]

/-- START switches the receiver on later than the pair began to carry. -/
theorem State.switchOnReceiver_cases (s : State) :
    (s.carrier = none ∧ s.switchOnReceiver = { s with receiver := .clear }) ∨
    ∃ since m : Time, s.carrier = some since ∧ since < m ∧
      s.switchOnReceiver = { s with receiver := .switchedOn m, choices := s.choices + 1 } := by
  unfold State.switchOnReceiver
  split
  · exact .inl ⟨‹_›, rfl⟩
  · exact .inr ⟨_, _, ‹_›, by simp only [Time]; omega, rfl⟩

/-- A loss of synchronization restarts the receiver at the cycle end. -/
theorem State.abandonFrame_eq (s : State) (t : Timeline) (h : s.timeline = some t) :
    s.abandonFrame = { s with receiver := .restarted t.ends } := by
  simp [State.abandonFrame, h, State.restartReceiver]

end Sys2Proof.Machine
end

