-- ==== Sys2Proof/Laws/Safety.lean ====
section
/-! SUPPORT. The laws of `Safety` as decidable conjunctions, by which a state written out is shown to be legal. -/

namespace Sys2Proof.Safety

open Sys2Proof.Machine

/-- The laws of the event queue in one decidable statement. -/
abbrev EventsLegal.Checks (s : State) : Prop :=
  (s.events.length ≤ Config.eventRecords) ∧
  (∀ r ∈ s.events.dropLast, r.event ≠ .overflow) ∧
  (s.events.length = Config.eventRecords → s.events.getLast?.map (·.event) = some .overflow)

theorem EventsLegal.of_checks {s : State} (h : EventsLegal.Checks s) : EventsLegal s :=
  let ⟨h0, h1, h2⟩ := h
  ⟨h0, h1, h2⟩

/-- The laws of the station in one decidable statement. -/
abbrev StationLegal.Checks (s : State) : Prop :=
  (s.timeline.isSome = s.station.onTimeline) ∧
  (∀ t ∈ s.timeline, t.founder ≠ 0) ∧
  (s.holdover < Config.holdoverLimit) ∧
  (s.station.onTimeline = false → s.holdover = 0) ∧
  (s.station = .settle → 1 ≤ s.settle ∧ s.settle ≤ Config.settleCycles) ∧
  (s.station ≠ .settle → s.settle = 0) ∧
  (s.station ≠ .listen → s.listenTimer = .stopped) ∧
  (s.station = .listen →
    s.listenTimer ≠ .stopped ∧ (s.listenTimer.isCounting = true ↔ s.carrier = none)) ∧
  (s.station ≠ .active → s.drawnPosition = none) ∧
  (s.station.onTimeline = false → s.beaconHeard = false) ∧
  (s.station ≠ .active → s.station ≠ .leaving → s.tx = none) ∧
  (s.station = .unconfigured → s.config = Configuration.clear) ∧
  (s.station ≠ .unconfigured →
    s.config.address ≠ 0 ∧ s.config.seed ≠ 0 ∧ (s.config.founderEligible = true → s.config.beaconEligible = true)) ∧
  (s.station = .unconfigured ∨ s.station = .ready → s.sessionFlag = false)

theorem StationLegal.of_checks {s : State} (h : StationLegal.Checks s) : StationLegal s :=
  let ⟨h0, h1, h2, h3, h4, h5, h6, h7, h8, h9, h10, h11, h12, h13⟩ := h
  ⟨h0, h1, h2, h3, h4, h5, h6, h7, h8, h9, h10, h11, h12, h13⟩

/-- The laws of the claim engine in one decidable statement. -/
abbrev ClaimsLegal.Checks (s : State) : Prop :=
  (s.claimQueue.Nodup) ∧
  (∀ i ∈ s.claimQueue, s.streams[i].state = .claiming ∧ s.probing i = 0) ∧
  (∀ l : LaneNo, ∀ r ∈ s.lanes[l],
    s.streams[r.stream].state = .claiming ∧ s.map[r.slot] = .probe l r.stream ∧ r.cleanCount < Config.probeCycles) ∧
  (∀ r ∈ s.lanes[(0 : LaneNo)], ∀ q ∈ s.lanes[(1 : LaneNo)], r.stream ≠ q.stream) ∧
  (∀ (k : SlotNo) (l : LaneNo) (i : StreamNo), s.map[k] = .probe l i →
    ∃ r ∈ s.lanes[l], r.slot = k ∧ r.stream = i) ∧
  (s.station ≠ .active → s.claimQueue = [] ∧ s.lanes[(0 : LaneNo)] = none ∧ s.lanes[(1 : LaneNo)] = none)

theorem ClaimsLegal.of_checks {s : State} (h : ClaimsLegal.Checks s) : ClaimsLegal s :=
  let ⟨h0, h1, h2, h3, h4, h5⟩ := h
  ⟨h0, h1, h2, h3, h4, h5⟩

/-- The laws of one stream's slots and ranges in one decidable statement. -/
abbrev StreamLegal.RangeChecks (s : State) (i : StreamNo) : Prop :=
  (s.streams[i].held.Nodup) ∧
  (∀ k : SlotNo, k ∈ s.streams[i].held ↔ s.map[k].isMineOf i = true) ∧
  (s.streams[i].held.length + s.probing i ≤ s.streams[i].wanted) ∧
  (1 ≤ s.streams[i].wanted ∧ s.streams[i].wanted ≤ 4) ∧
  (s.streams[i].state = .live → s.streams[i].held.length = s.streams[i].wanted) ∧
  (s.streams[i].state = .idle ∨ s.streams[i].state = .failed → s.streams[i].held = []) ∧
  (s.streams[i].state = .closing → s.streams[i].held ≠ []) ∧
  (∀ k ∈ s.streams[i].held, finalPending s.map[k] = (s.streams[i].state == .closing)) ∧
  (s.blocksOf i ≤ Config.txBlocks)

/-- The laws of one stream's claim fields and states in one decidable statement. -/
abbrev StreamLegal.StateChecks (s : State) (i : StreamNo) : Prop :=
  (s.streams[i].attempts < Config.attemptLimit) ∧
  (s.streams[i].backoff < 32) ∧
  (s.streams[i].deferral < Config.deferLimit) ∧
  (s.streams[i].state ≠ .claiming →
    s.streams[i].attempts = 0 ∧ s.streams[i].backoff = 0 ∧ s.streams[i].deferral = 0 ∧
    s.streams[i].shortPosted = false) ∧
  (s.probing i ≠ 0 → s.streams[i].backoff = 0 ∧ s.streams[i].deferral = 0) ∧
  (i ∈ s.claimQueue → s.streams[i].backoff = 0 ∧ s.streams[i].held.length < s.streams[i].wanted) ∧
  (s.streams[i].failure.isSome = true ↔ s.streams[i].state = .failed) ∧
  (s.station = .leaving → s.streams[i].state = .idle ∨ s.streams[i].state = .closing) ∧
  (s.station ≠ .active → s.streams[i].state ≠ .live) ∧
  (s.station ≠ .active → s.station ≠ .leaving → s.streams[i].state ≠ .closing)

/-- The laws of one stream. -/
abbrev StreamLegal.Checks (s : State) (i : StreamNo) : Prop :=
  StreamLegal.RangeChecks s i ∧ StreamLegal.StateChecks s i

theorem StreamLegal.of_checks {s : State} {i : StreamNo} (h : StreamLegal.Checks s i) : StreamLegal s i :=
  let ⟨⟨h0, h1, h2, h3, h4, h5, h6, h7, h8⟩, h9, h10, h11, h12, h13, h14, h15, h16, h17, h18⟩ := h
  ⟨h0, h1, h2, h3, h4, h5, h6, h7, h8, h9, h10, h11, h12, h13, h14, h15, h16, h17, h18⟩

/-- The laws of the subscription table in one decidable statement. -/
abbrev SubsLegal.Checks (s : State) : Prop :=
  (∀ e : EntryNo, s.subs[e].queue.length ≤ Config.rxBlocks) ∧
  (∀ e : EntryNo, s.subs[e].quietCount < Config.lease) ∧
  (∀ e : EntryNo, s.subs[e].state ≠ .active → s.subs[e].quietCount = 0) ∧
  (∀ e : EntryNo, s.subs[e].state = .idle →
    s.subs[e].queue = [] ∧ s.subs[e].expected = none ∧ s.subs[e].presence = false) ∧
  (∀ e : EntryNo, s.subs[e].state = .waiting ∨ s.subs[e].state = .ended → s.subs[e].expected = none) ∧
  (∀ e : EntryNo, s.subs[e].state ≠ .idle → s.subs[e].source ≠ 0) ∧
  (∀ d e : EntryNo, d ≠ e → s.subs[d].state ≠ .idle → s.subs[e].state ≠ .idle →
    (s.subs[d].source, s.subs[d].tag) ≠ (s.subs[e].source, s.subs[e].tag))

theorem SubsLegal.of_checks {s : State} (h : SubsLegal.Checks s) : SubsLegal s :=
  let ⟨h0, h1, h2, h3, h4, h5, h6⟩ := h
  ⟨h0, h1, h2, h3, h4, h5, h6⟩

/-- The set of these buffers as the bits of a number, by which the kernel compares sets quickly. -/
def bufferMask (bs : List BufferNo) : Nat := bs.foldr (fun b m => m ||| 1 <<< b.val) 0

theorem bufferMask_testBit (bs : List BufferNo) (b : BufferNo) : (bufferMask bs).testBit b.val = decide (b ∈ bs) := by
  induction bs with
  | nil => simp [bufferMask]
  | cons c bs ih =>
    have hc : (1 <<< c.val).testBit b.val = decide (b = c) := by
      rw [Nat.one_shiftLeft, Nat.testBit_two_pow]
      simp [Fin.ext_iff, eq_comm]
    have : bufferMask (c :: bs) = bufferMask bs ||| 1 <<< c.val := rfl
    rw [this, Nat.testBit_or, ih, hc, ← Bool.decide_or]
    simp [or_comm]

/-- A list of 192 buffers that holds every one holds each once. -/
theorem count_of_mask {bs : List BufferNo} (hm : bufferMask bs = 2 ^ 192 - 1) (hl : bs.length = 192) (b : BufferNo) :
    bs.count b = 1 := by
  have hall : List.finRange 192 ⊆ bs := fun c _ => by
    have := bufferMask_testBit bs c
    rw [hm, Nat.testBit_two_pow_sub_one] at this
    simpa using this.symm
  have hp : (List.finRange 192).Perm bs :=
    ((List.nodup_finRange 192).subperm hall).perm_of_length_le (by simp [hl])
  rw [← hp.count_eq, List.count_eq_one_of_mem (List.nodup_finRange 192) (List.mem_finRange b)]

/-- The laws of the block pool in one decidable statement. -/
abbrev PoolLegal.Checks (s : State) : Prop :=
  (bufferMask s.buffers = 2 ^ 192 - 1 ∧ s.buffers.length = 192) ∧
  (s.freeBuffers + s.txQueued + (if s.inTransit.isSome then 1 else 0) + s.rxQueued = Config.poolBuffers) ∧
  (∀ i : StreamNo, s.streams[i].state = .idle ∨ s.streams[i].state = .closing →
    s.streams[i].queue = []) ∧
  (∀ l : LaneNo, ∀ r ∈ s.lanes[l], s.map[r.slot] = .probe l r.stream) ∧
  (∀ b ∈ s.inTransit, s.station = .active ∨ s.station = .leaving) ∧
  (∀ b ∈ s.inTransit, s.map[b.slot].isMineOf b.stream = true) ∧
  (∀ b ∈ s.inTransit, s.timeline.map (·.nextBoundary) = some (.slotEnd b.slot)) ∧
  (∀ b ∈ s.inTransit, sendsMark s .data = true) ∧
  (∀ b ∈ s.inTransit, b.disposal = .returnToQueue →
    s.streams[b.stream].state ≠ .idle ∧ s.streams[b.stream].state ≠ .closing)

theorem PoolLegal.of_checks {s : State} (h : PoolLegal.Checks s) : PoolLegal s :=
  let ⟨h0, h1, h2, h3, h4, h5, h6, h7, h8⟩ := h
  ⟨count_of_mask h0.1 h0.2, h1, h2, h3, h4, h5, h6, h7, h8⟩

/-- The laws of the host link in one decidable statement. -/
abbrev LinkLegal.Checks (s : State) : Prop :=
  (phaseLegal s = true) ∧
  (s.resetHeld = false → (s.link = .idle ↔ s.selectLow = false)) ∧
  (s.resetHeld = true → s.station = .unconfigured ∧ (s.link = .idle ∨ s.link = .done))

theorem LinkLegal.of_checks {s : State} (h : LinkLegal.Checks s) : LinkLegal s :=
  let ⟨h0, h1, h2⟩ := h
  ⟨h0, h1, h2⟩

/-- The laws of the stream table but for those of each stream. -/
abbrev StreamsLegal.Checks (s : State) : Prop :=
  (∀ i j : StreamNo, i ≠ j → s.streams[i].state ≠ .idle → s.streams[j].state ≠ .idle →
    s.streams[i].tag ≠ s.streams[j].tag) ∧
  (∀ t ∈ s.timeline, ∀ k : SlotNo, t.nextBoundary = .slotEnd k → sendsMark s .final = true →
    s.map[k].isMine = true → finalPending s.map[k] = true)

/-- The checks of every block as one test. -/
def legalCheck (s : State) : Bool :=
  decide (EventsLegal.Checks s) && decide (StationLegal.Checks s) && decide (ClaimsLegal.Checks s) &&
    decide (∀ k : SlotNo, entryLegal s k s.map[k] = true) && decide (∀ i : StreamNo, StreamLegal.RangeChecks s i) &&
    decide (∀ i : StreamNo, StreamLegal.StateChecks s i) &&
    decide (StreamsLegal.Checks s) && decide (SubsLegal.Checks s) && decide (PoolLegal.Checks s) &&
    decide (LinkLegal.Checks s)

/-- A state that passes the test is legal. -/
theorem legal_of_check {s : State} (h : legalCheck s = true) : Legal s := by
  simp only [legalCheck, Bool.and_eq_true, decide_eq_true_eq] at h
  obtain ⟨⟨⟨⟨⟨⟨⟨⟨⟨he, hs⟩, hc⟩, hm⟩, hi⟩, hj⟩, ht⟩, hu⟩, hp⟩, hl⟩ := h
  exact
    { events := .of_checks he
      station := .of_checks hs
      claims := .of_checks hc
      map := hm
      streams := ⟨fun i => .of_checks ⟨hi i, hj i⟩, ht.1, ht.2⟩
      subs := .of_checks hu
      pool := .of_checks hp
      link := .of_checks hl }

end Sys2Proof.Safety
end

