-- ==== Sys2Proof/Tests/Slice0.lean ====
section
/-! SUPPORT. Tests: the layouts on words written out from R174 to R177, the checks of `wellFormed` on ill-formed terms, a
few single steps against the manual's text, and for each statement with hypotheses a state and operands that meet them. -/

namespace Sys2Proof.Tests

set_option Elab.async false

open Sys2Proof.Machine Sys2Proof.Safety

/-! ## Small states -/

/-- A payload of one byte repeated. -/
def block (b : Byte) : Payload := Vector.replicate 24 b

/-- Blocks in buffers 0, 1, 2 and so on. -/
def queued (bs : List Payload) : List Block := bs.zipIdx.map fun p => { buffer := Fin.ofNat 192 p.2, data := p.1 }

/-- A free list without its first `n` buffers. -/
def freeFrom (n : Nat) : List BufferNo := (List.finRange 192).drop n

/-- Address 5, founder-eligible. -/
def cfg : Configuration := { address := 5, seed := 1, founderEligible := true, beaconEligible := true }

/-- A transaction has begun. -/
def code (s : State) : State := { s with selectLow := true, link := .code }

def ready : State := { State.reset with station := .ready, config := cfg }
def listening : State := { ready with station := .listen, listenTimer := .counting 3000 }

/-- Timeline 3, cycle 7, its cycle start at time 0. -/
def line (b : Boundary) : Timeline := { founder := 3, cycle := 7, startedAt := 0, nextBoundary := b }

/-- SETTLE, every slot FREE. -/
def settling (b : Boundary) : State :=
  { ready with station := .settle, timeline := some (line b), settle := 8, map := Vector.replicate 48 .free }

/-- ACTIVE, every slot FREE. -/
def active (b : Boundary) : State :=
  { ready with station := .active, timeline := some (line b), map := Vector.replicate 48 .free }

/-- ACTIVE, stream 0 with this record, slot 4 with this entry. -/
def working (b : Boundary) (r : Machine.Stream) (e : MapEntry) : State :=
  { active b with streams := (active b).streams.set 0 r, map := (active b).map.set 4 e
                  freeList := freeFrom r.queue.length }

/-- Stream 0 LIVE on slot 4. -/
def live (queue : List Payload) : Machine.Stream := { Stream.reset with state := .live, held := [4], queue := queued queue }

/-- Stream 0 LIVE, slot 4 its own with this conflict count. -/
def owning (b : Boundary) (queue : List Payload) (conflicts : Nat) : State :=
  working b (live queue) (.mine 0 conflicts false)

/-- Stream 0 CLOSING, slot 4 final-pending. -/
def ending (b : Boundary) : State :=
  working b { Stream.reset with state := .closing, held := [4] } (.mine 0 0 true)

def leaving (b : Boundary) : State := { ending b with station := .leaving }

/-- Stream 0 probes slot 4 in lane 0. -/
def probing (b : Boundary) (r : Machine.Stream) (clean : Nat) : State :=
  { working b { r with state := .claiming } (.probe 0 0) with
    lanes := (Vector.replicate 2 none).set 0 (some { stream := 0, slot := 4, cleanCount := clean }) }

/-- Stream 0 CLAIMING. -/
def claiming (b : Boundary) : State := working b { Stream.reset with state := .claiming } .free

/-- The station's own slot frame with this mark. -/
def own (m : Mark) : SlotFrame := { mark := m, owner := 5, tag := 0, sequence := 0, payload := block 0 }

/-- The station transmits its own slot frame. -/
def sending (s : State) (m : Mark) (stage : Stage) : State := { s with tx := some { frame := .slot (own m), stage := stage } }

/-- A block in buffer 191, the last of the free lists here. -/
def flying : Block := { buffer := 191, data := block 1 }

/-- A DATA block of stream 0 is in transit in slot 4. -/
def inFlight (s : State) (d : Disposal) : State :=
  { s with inTransit := some { stream := 0, slot := 4, block := flying, disposal := d }
           freeList := s.freeList.dropLast }

/-- A beacon of this founder at position 2, slots 0 and 47 active. -/
def beacon (founder : Address) : BeaconFrame :=
  { sender := 5, position := 2, founder := founder, cycle := 500
    occupancy := Vector.ofFn fun k => k.val == 0 || k.val == 47 }

/-- The bytes after the start pattern of a beacon from station 5 at position 2, founder 3, cycle 500, slots 0 and 47 active
(R175). -/
def beaconBytes : List Byte := [0x2A, 0x18, 0x01, 0xF4, 0x80, 0x00, 0x00, 0x00, 0x00, 0x01, 0x5B, 0x78]

/-- The bytes after the start pattern of a DATA frame from station 5 with tag 11h and sequence 22h (R175). -/
def dataBytes : List Byte :=
  [0x45, 0x11, 0x22, 0xA5] ++ List.replicate 22 0x00 ++ [0x5A, 0xF4, 0x9F]

/-- One subscription, entry 0 to source 9, tag 2. -/
def following (s : State) (state : SubState) (queue : List StoredBlock) : State :=
  { s with subs := s.subs.set 0 ({ Subscription.reset with state := state, source := 9, tag := 2, queue := queue })
           freeList := s.freeList.drop queue.length }

def stored : StoredBlock :=
  { buffer := 0, entry := 0, source := 9, tag := 2, cycle := 7, slot := 4, sequence := 1, gap := 0, payload := block 7 }

/-- A frame of this source, tag 2, heard whole in slot occurrence 4, which opens at 168000: it lasts 12400 (R174). -/
def hearingFrom (s : State) (owner : Address) (m : Mark) : State :=
  { s with reports := { Reports.empty with
      frames := [{ frame := some (.slot { mark := m, owner := owner, tag := 2, sequence := 6, payload := block 1 })
                   firstBit := 169000, lastBit := 181400 }] } }

/-- A frame of source 9. -/
def hearing (s : State) (m : Mark) : State := hearingFrom s 9 m

/-- A jam report at this time. -/
def jammed (s : State) (time : Time) : State := { s with reports := { Reports.empty with jams := [time] } }

/-- A transaction whose response is in progress. -/
def responding (s : State) (response : List Byte) (commit : Option CommitTarget) (n : Nat) : State :=
  let t : Taken := { code := 0x40, status := .ok, response := response, commit := commit }
  { s with selectLow := true, link := .response t n }

/-! ## Layouts -/

/-- R175: the nine bytes 31h to 39h give the check word 29B1h. -/
theorem test_check_word : checkWord [0x31, 0x32, 0x33, 0x34, 0x35, 0x36, 0x37, 0x38, 0x39] = 0x29B1 := by
  decide +kernel

/-- R175: mark 2h and owner 5 in byte 0, tag, sequence, payload and check word. -/
theorem test_data_frame :
    Frame.parse 0xAA5C dataBytes = some (.slot
      { mark := .data, owner := 5, tag := 0x11, sequence := 0x22
        payload := ((Vector.replicate 24 0).set 0 0xA5).set 23 0x5A }) := by
  decide +kernel

/-- R175: sender and position in byte 0, founder in bits 7 to 3 of byte 1, byte 4 bit 7 slot 0, byte 9 bit 0 slot 47. -/
theorem test_beacon_frame : Frame.parse 0xAA3A beaconBytes = some (.beacon (beacon 3)) := by decide +kernel

/-- R4: mark code 6h, owner 0, a wrong check word and a byte too few are not well formed. -/
theorem test_ill_formed_frames :
    Frame.parse 0xAA5C ([0xC5, 0x11, 0x22] ++ List.replicate 24 0 ++ [0x54, 0x19]) = none ∧
    Frame.parse 0xAA5C ([0x40, 0x11, 0x22] ++ List.replicate 24 0 ++ [0x06, 0xAD]) = none ∧
    Frame.parse 0xAA3A (beaconBytes.dropLast ++ [0x79]) = none ∧ Frame.parse 0xAA5C dataBytes.dropLast = none := by
  decide +kernel

/-- R174: preamble AAh and start byte 5Ch or 3Ah open a frame, and another start byte gives no frame. -/
theorem test_start_pattern :
    (Frame.beacon (beacon 3)).wire = 0xAA :: 0x3A :: beaconBytes ∧ FrameKind.ofPattern 0xAA5C = some .slot ∧
      FrameKind.ofPattern 0xAA5D = none ∧ FrameKind.ofPattern 0x3AAA = none := by decide +kernel

/-- R174: a slot frame lasts 12.40 µs and ends 13.40 µs after its division opens, 4.60 µs before it closes; a beacon 5.60,
6.60 and 5.40. -/
theorem test_frame_lengths :
    FrameKind.slot.duration = 12400 ∧ FrameKind.beacon.duration = 5600 ∧
      Config.slotTime - (Config.leadInTime + FrameKind.slot.duration) = 4600 ∧
      Config.positionTime - (Config.leadInTime + FrameKind.beacon.duration) = 5400 := by decide

/-- R174: the preamble byte AAh is 1 and 0 in turn, and jam is 1.5 bit times high and then 1.5 low. -/
theorem test_line_levels :
    byteLevels 0xAA = [true, false, false, true, true, false, false, true, true, false, false, true, true, false, false,
      true] ∧ (List.range 7).map jamLevel = [true, true, true, false, false, false, true] := by decide

/-- R176: every code of the table and four that name no request. -/
theorem test_request_codes :
    ([0x10, 0x11, 0x12, 0x1F, 0x20, 0x21, 0x22, 0x30, 0x31, 0x32, 0x40, 0x41, 0x42, 0x43, 0x44] : List Byte).map
      RequestCode.ofByte =
        [some .configure, some .start, some .stop, some .reset, some .openTx, some .closeTx, some .push,
         some .subscribe, some .unsubscribe, some .pop, some .readEvent, some .readStation, some .readStream,
         some .readSub, some .readSlot] ∧
    ([0x00, 0x13, 0x45, 0xFF] : List Byte).map RequestCode.ofByte = [none, none, none, none] := by
  decide +kernel

/-- No row of the opcode table gives bits. -/
theorem test_no_word_spells_a_command (nbits w : Nat) : decodeTableWord nbits w = none := rfl

/-! ## Well-formedness refuses what cannot arrive -/

theorem test_known_code_is_no_unknown_code :
    (Instr.unknownCode 0x10).wellFormed = false ∧ (Instr.unknownCode 0x13).wellFormed = true := by decide

theorem test_frame_report_of_wrong_length :
    (Instr.frameReport 0xAA5C (List.replicate 28 0) 0 12400).wellFormed = false ∧
    (Instr.frameReport 0xAA5C (List.replicate 29 0) 0 12400).wellFormed = true ∧
    (Instr.frameReport 0xAA3A (List.replicate 29 0) 0 5600).wellFormed = false ∧
    (Instr.frameReport 0xAA3A (List.replicate 12 0) 0 5600).wellFormed = true := by decide

theorem test_frame_report_of_wrong_pattern :
    (Instr.frameReport 0xAA00 (List.replicate 12 0) 0 5600).wellFormed = false := by decide

theorem test_frame_report_of_wrong_duration :
    (Instr.frameReport 0xAA3A (List.replicate 12 0) 7 5606).wellFormed = false := by decide

/-! ## Single steps -/

/-- The response and status of the request that a step takes. -/
def answered (o : Host.Outcome State Fault Refusal) : Option (Status × List Byte) :=
  match o with
  | .next { link := .turnaround t, .. } => some (t.status, t.response)
  | _ => none

/-- R20, R26: the part after device reset is UNCONFIGURED and an empty queue leaves it so. -/
theorem test_reset_idles : step State.reset = .next State.reset := by
  simp only [step, State.reset, State.idle, ListenTimer.tick]

/-- R177: READ_SLOT of a HELD entry gives slot, state code 2, owner, tag, count and FFh elsewhere. -/
theorem test_read_slot_held :
    answered (exec (.readSlot 4) (code { active .cycleEnd with map := (active .cycleEnd).map.set 4 (.held (some (9, 2)) 3) })) =
      some (.ok, [4, 2, 9, 2, 3, 0xFF, 0xFF, 0xFF, 0xFF, 0xFF]) := by decide +kernel

/-- R177: READ_EVENT of STREAM_LOST(2, slot 14) in cycle 2400 (section 9.6). -/
theorem test_read_event :
    answered (exec .readEvent (code { ready with events := [{ event := .streamLost 2 14, cycle := some 2400 }] })) =
      some (.ok, [5, 2, 14, 1, 0x09, 0x60]) := by decide +kernel

/-- Section 9.6: with 31 records the next one is replaced by OVERFLOW, and later ones are discarded. -/
theorem test_overflow :
    let r : EventRecord := { event := .subStale 3, cycle := some 2400 }
    let q := List.replicate 31 r
    enqueueEvent q r = q ++ [{ event := .overflow, cycle := some 2400 }] ∧
      enqueueEvent (q ++ [{ event := .overflow, cycle := some 2400 }]) r =
        q ++ [{ event := .overflow, cycle := some 2400 }] := by decide +kernel

/-- R131: the gap of sequence 6 where 254 was expected is 8, modulo 256. -/
theorem test_gap_wraps : ({ Subscription.reset with expected := some 254 }).gap 6 = 8 := by decide

/-- R161: data out is released while select is high, and carries the status byte in STATUS. -/
theorem test_data_out :
    ready.dataOut = none ∧ (code ready).dataOut = some 0 ∧
      ({ code ready with link := .status { code := 0x11, status := .badState, response := [], commit := none } }).dataOut =
        some 0x03 := by decide +kernel

/-- R177: the status byte BAD_STATE, 03h, goes out most significant bit first, and its bits come in so. -/
theorem test_data_out_bits :
    let s := { code ready with link := .status { code := 0x11, status := .badState, response := [], commit := none } }
    (List.range 9).map s.dataOutBit = [some false, some false, some false, some false, some false, some false,
      some true, some true, none] ∧ ready.dataOutBit 0 = none ∧
    byteOfBits #v[false, false, false, false, false, false, true, true] = 0x03 := by decide +kernel

/-- R159, R178: the interrupt output is asserted, and HINT low, while the queue holds a record. -/
theorem test_interrupt :
    ready.interruptAsserted = false ∧ ready.hint = true ∧
      ({ ready with events := [{ event := .addressClash, cycle := none }] }).hint = false := by decide +kernel

/-- R17: a beacon on the pair since before START is not adopted, and one that begins after it is received. -/
theorem test_receiver_switched_on_in_a_frame :
    let s := { listening with carrier := some 1000, listenTimer := .held 3000, receiver := .switchedOn 2000 }
    ({ code ready with carrier := some 1000 }).startRequest.2.receiver =
      .switchedOn (1000 + 1 + Config.startDelay 0) ∧
    exec (.frameReport 0xAA3A beaconBytes 1000 6600) s = .next s ∧ s.receiver.misses 13000 18600 = false ∧
    (s.hears 1900).receiver = .switchedOn 1900 := ⟨rfl, rfl, by decide, by decide⟩

/-- R28, R30: where the receiver starts afresh at 6.6 µs, a beacon that ends then is taken, in SETTLE here by a merge, and
one under way then is not. -/
theorem test_receiver_restarts :
    let s := { settling .cycleEnd with
      timeline := some { line .cycleEnd with founder := 4 }, receiver := .restarted 6600 }
    s.receiver.misses 1000 6600 = false ∧ s.receiver.misses 1001 6601 = true ∧ s.receiver.misses 6600 12200 = false ∧
    (s.sortBeacon { line .cycleEnd with founder := 4 } (beacon 3) 1000).timeline.map (·.founder) = some 3 ∧
    (code (settling .cycleEnd)).loseSync.receiver = .restarted (line .cycleEnd).ends := by decide +kernel

/-! ## The small states are legal -/

theorem legal_ready : Legal (code ready) := legal_of_check (by decide +kernel)
theorem legal_listening : Legal (code listening) := legal_of_check (by decide +kernel)
theorem legal_settling : Legal (code (settling .cycleEnd)) := legal_of_check (by decide +kernel)
theorem legal_active : Legal (code (active .cycleEnd)) := legal_of_check (by decide +kernel)
theorem legal_owning : Legal (code (owning .cycleEnd [block 1] 0)) := legal_of_check (by decide +kernel)
theorem legal_leaving : Legal (code (leaving .cycleEnd)) := legal_of_check (by decide +kernel)
theorem legal_claiming : Legal (claiming .slotPhaseStart) := legal_of_check (by decide +kernel)

/-! ## Each statement's hypotheses are met

One theorem for each statement that has hypotheses: a state and operands for each of its clauses, at a boundary value
where the clause has a range. -/

/-- A byte string of the link's own: what a request needs to be taken. -/
theorem takes_of (s : State) (c : Byte) (args : List Byte) (h : (!s.resetHeld && s.link.awaits c args) = true) :
    Takes s c args := by
  simpa [Takes] using h

/-- The event is due. -/
theorem due_of (s : State) (b : Boundary) (t : Timeline)
    (h : s.resetHeld = false ∧ s.station.onTimeline = true ∧ s.timeline = some t ∧ t.nextBoundary = b) : Due s b t := h

theorem test_StepRunsFrontCommand_met :
    ({ ready with pending := [.leadIn, .start] }).pending = .leadIn :: [.start] ∧ listening.pending = [] ∧
      listening.listenTimer = .counting 3000 ∧ ready.pending = [] ∧ ∀ n, ready.listenTimer ≠ .counting n :=
  ⟨rfl, rfl, rfl, rfl, fun n => by simp [ready, State.reset]⟩

theorem test_DeviceResetFromRequestAndInput_met :
    Takes (code (owning .cycleEnd [] 0)) 0x1F [] ∧ (active .cycleEnd).resetHeld = false ∧
      ({ State.reset with resetHeld := true }).resetHeld = true :=
  ⟨takes_of _ _ _ (by decide +kernel), rfl, rfl⟩

/-- A command that moves a level, and one that does nothing. -/
theorem test_HeldResetKeepsEveryBlock_met :
    let s : State := { State.reset with resetHeld := true, link := .done, selectLow := true }
    s.resetHeld = true ∧ LinkLegal s ∧ Instr.carrierStart 9 ≠ .resetInputReleased ∧
      exec (.carrierStart 9) s = .next { s with carrier := some 9 } ∧ exec .transactionEnd s = .next { s with selectLow := false } :=
  ⟨rfl, .of_checks (by decide +kernel), by decide, rfl, rfl⟩

/-- Addresses 1 and 31 are accepted; 0, 32, seed 0 and a founder that is not beacon-eligible draw BAD_ARG. -/
theorem test_ConfigureStoresOrRefuses_met :
    Takes (code State.reset) 0x10 (1 :: (halfBytes 1 ++ [choicesByte true true])) ∧
    Takes (code State.reset) 0x10 (32 :: (halfBytes 0 ++ [choicesByte true false])) ∧
    Takes (code ready) 0x10 (31 :: (halfBytes 1 ++ [choicesByte false false])) ∧
    (code State.reset).station = .unconfigured ∧ (code State.reset).timeline = none ∧
    1 ≤ (1 : Byte).toNat ∧ (31 : Byte).toNat ≤ 31 ∧ (1 : Half) ≠ 0 ∧ (0 : Byte).toNat = 0 ∧ 31 < (32 : Byte).toNat ∧
    (code ready).station ≠ .unconfigured :=
  ⟨takes_of _ _ _ (by decide +kernel), takes_of _ _ _ (by decide +kernel), takes_of _ _ _ (by decide +kernel), rfl, rfl,
    by decide, by decide, by decide, by decide, by decide, by decide⟩

/-- START with the pair quiet and with carrier present. -/
theorem test_StartAndStopOffTheBus_met :
    Takes (code ready) 0x12 [] ∧ Takes (code ready) 0x11 [] ∧ Takes (code { ready with carrier := some 0 }) 0x11 [] ∧
    Takes (code State.reset) 0x12 [] ∧ Takes (code State.reset) 0x11 [] ∧ (code ready).station = .ready ∧
    (code ready).timeline = none ∧ (code State.reset).station = .unconfigured :=
  ⟨takes_of _ _ _ rfl, takes_of _ _ _ rfl, takes_of _ _ _ rfl, takes_of _ _ _ rfl, takes_of _ _ _ rfl, rfl, rfl, rfl⟩

theorem test_LeavingTakesNoNewWork_met :
    (code (leaving .cycleEnd)).station = .leaving ∧ Takes (code (leaving .cycleEnd)) 0x12 [] ∧
    StreamsLegal (code (leaving .cycleEnd)) ∧ Takes (code (leaving .cycleEnd)) 0x20 [1, 0, 1] ∧
    Takes (code (leaving .cycleEnd)) 0x30 [0, 9, 2] :=
  ⟨rfl, takes_of _ _ _ rfl, legal_leaving.streams, takes_of _ _ _ rfl, takes_of _ _ _ rfl⟩

/-- In LISTEN with a CLAIMING stream that queues a block, and in SETTLE. -/
theorem test_StopBeforeActiveArrivesInReady_met :
    let s := code { listening with
      streams := listening.streams.set 0 ({ Stream.reset with state := .claiming, queue := queued [block 1] })
      freeList := freeFrom 1 }
    Legal s ∧ Takes s 0x12 [] ∧ s.station = .listen ∧ Legal (code (settling .cycleEnd)) ∧
      Takes (code (settling .cycleEnd)) 0x12 [] ∧ (code (settling .cycleEnd)).station = .settle :=
  ⟨legal_of_check (by decide +kernel), takes_of _ _ _ rfl, rfl, legal_settling, takes_of _ _ _ rfl, rfl⟩

/-- With a MINE entry; with the station's own beacon under way; and with neither. -/
theorem test_StopInActiveLeavesTheBus_met :
    let s := code (owning .cycleEnd [block 1] 0)
    let b := code { active (.positionClose 2) with tx := some { frame := .beacon (beacon 3), stage := .sending } }
    let n := code (active .cycleEnd)
    (Legal s ∧ Takes s 0x12 [] ∧ s.station = .active ∧ s.map[(4 : SlotNo)] = .mine 0 0 false) ∧
    (Legal b ∧ Takes b 0x12 [] ∧ b.station = .active ∧ b.carriesBeaconOrClaim = true) ∧
    (Legal n ∧ Takes n 0x12 [] ∧ n.station = .active ∧ n.carriesBeaconOrClaim = false ∧
      ∀ (k : SlotNo) (i : StreamNo) (c : Nat) (f : Bool), n.map[k] ≠ .mine i c f) :=
  ⟨⟨legal_owning, takes_of _ _ _ rfl, rfl, by decide +kernel⟩,
    ⟨legal_of_check (by decide +kernel), takes_of _ _ _ rfl, rfl, rfl⟩,
    legal_active, takes_of _ _ _ rfl, rfl, rfl, fun k i c f => by simp [code, active]⟩

/-- A START moves the station along the table, and a device reset in READY moves it to UNCONFIGURED. -/
theorem test_StationMovesAlongTheTable_met :
    (∃ t, exec .start (code ready) = .next t ∧ t.station ≠ (code ready).station) ∧
    ∃ t, exec .resetInputAsserted ready = .next t ∧ t.station ≠ ready.station :=
  ⟨⟨_, rfl, by decide +kernel⟩, _, rfl, by decide +kernel⟩

theorem test_ConfigurationStandsUntilReset_met :
    ∃ t, exec .start (code ready) = .next t ∧ (code ready).station ≠ .unconfigured ∧ t.station ≠ .unconfigured :=
  ⟨_, rfl, by decide, by decide +kernel⟩

/-- Streams 7 and 8, wanted 0, 1, 4 and 5; a stream in use; a tag in use. -/
theorem test_OpenTxChecksInOrder_met :
    (∀ a b c : Byte, Takes (code ready) 0x20 [a, b, c] ∧ Takes (code State.reset) 0x20 [a, b, c] ∧
      Takes (code (owning .cycleEnd [] 0)) 0x20 [a, b, c]) ∧
    8 ≤ (8 : Byte).toNat ∧ (7 : Byte).toNat = (7 : StreamNo).val ∧ (0 : Byte).toNat = 0 ∧ 1 ≤ (1 : Byte).toNat ∧
    (4 : Byte).toNat ≤ 4 ∧ 5 ≤ (5 : Byte).toNat ∧
    (code State.reset).station = .unconfigured ∧ (code (leaving .cycleEnd)).station = .leaving ∧
    (code (owning .cycleEnd [] 0)).streams[(0 : StreamNo)].state ≠ .idle ∧
    (code (owning .cycleEnd [] 0)).streams[(7 : StreamNo)].state = .idle ∧
    (code (owning .cycleEnd [] 0)).streams[(0 : StreamNo)].tag = 0 ∧
    (∀ j : StreamNo, j ≠ 7 → (code (owning .cycleEnd [] 0)).streams[j].state ≠ .idle →
      (code (owning .cycleEnd [] 0)).streams[j].tag ≠ 9) :=
  ⟨fun a b c => ⟨takes_of _ _ _ rfl, takes_of _ _ _ rfl, takes_of _ _ _ rfl⟩, by decide, by decide, by decide, by decide,
    by decide, by decide, by decide, by decide, by decide +kernel, by decide +kernel, by decide +kernel, by decide +kernel⟩

/-- A stream with a held slot, and a CLAIMING one without. -/
theorem test_CloseTxOfOpenStream_met :
    let s := code (owning .cycleEnd [block 1] 0)
    let c := code (claiming .slotPhaseStart)
    (Legal s ∧ Takes s 0x21 [0] ∧ (0 : Byte).toNat = (0 : StreamNo).val ∧ s.streams[(0 : StreamNo)].state = .live) ∧
    (Legal c ∧ Takes c 0x21 [0] ∧ c.streams[(0 : StreamNo)].state = .claiming) :=
  ⟨⟨legal_owning, takes_of _ _ _ rfl, rfl, by decide +kernel⟩,
    legal_of_check (by decide +kernel), takes_of _ _ _ rfl, by decide +kernel⟩

/-- Stream 0 FAILED, stream 7 IDLE, stream 0 CLOSING, number 8. -/
theorem test_CloseTxOfFailedStreamAndRefusals_met :
    let s := code (working .cycleEnd { Stream.reset with state := .failed, failure := some .noSlot, queue := queued [block 1] } .free)
    Legal s ∧ (∀ b, Takes s 0x21 [b]) ∧ (0 : Byte).toNat = (0 : StreamNo).val ∧ s.streams[(0 : StreamNo)].state = .failed ∧
      s.streams[(7 : StreamNo)].state = .idle ∧ (code (ending .cycleEnd)).streams[(0 : StreamNo)].state = .closing ∧
      8 ≤ (8 : Byte).toNat :=
  ⟨legal_of_check (by decide +kernel), fun _ => takes_of _ _ _ rfl, rfl, by decide +kernel, by decide +kernel,
    by decide +kernel, by decide⟩

/-- Stream 8; an IDLE stream; 16 blocks, in the queue or with one in transit; 15 blocks; an empty pool. -/
theorem test_PushChecksInOrder_met :
    let full := code (owning .cycleEnd (List.replicate 16 (block 1)) 0)
    let flying := code (inFlight (owning (.slotEnd 4) (List.replicate 15 (block 1)) 0) .returnToQueue)
    let room := code (owning .cycleEnd (List.replicate 15 (block 1)) 0)
    (∀ (b : Byte) (p : Payload), Takes full 0x22 (b :: p.toList) ∧ Takes flying 0x22 (b :: p.toList) ∧
      Takes room 0x22 (b :: p.toList) ∧ Takes { room with freeList := [] } 0x22 (b :: p.toList)) ∧
    8 ≤ (8 : Byte).toNat ∧ (0 : Byte).toNat = (0 : StreamNo).val ∧ (7 : Byte).toNat = (7 : StreamNo).val ∧
    full.streams[(7 : StreamNo)].state = .idle ∧ full.streams[(0 : StreamNo)].state = .live ∧
    16 ≤ full.streams[(0 : StreamNo)].queue.length + (if full.inTransit.map (·.stream) = some 0 then 1 else 0) ∧
    16 ≤ flying.streams[(0 : StreamNo)].queue.length + (if flying.inTransit.map (·.stream) = some 0 then 1 else 0) ∧
    room.streams[(0 : StreamNo)].queue.length + (if room.inTransit.map (·.stream) = some 0 then 1 else 0) < 16 ∧
    0 < room.freeBuffers :=
  ⟨fun b p => ⟨takes_of _ _ _ rfl, takes_of _ _ _ rfl, takes_of _ _ _ rfl, takes_of _ _ _ rfl⟩, by decide, by decide,
    by decide, by decide +kernel, by decide +kernel, by decide +kernel, by decide +kernel, by decide +kernel,
    by decide +kernel⟩

/-- Entries 15 and 16; sources 0, 1, 5 (the station's own), 31 and 32; an entry in use; a pair in use. -/
theorem test_SubscribeChecksInOrder_met :
    let s := code (following ready .waiting [])
    (∀ a b c : Byte, Takes s 0x30 [a, b, c] ∧ Takes (code State.reset) 0x30 [a, b, c]) ∧
    (code State.reset).station = .unconfigured ∧ (code (leaving .cycleEnd)).station = .leaving ∧
    s.station ≠ .unconfigured ∧ s.station ≠ .leaving ∧ 16 ≤ (16 : Byte).toNat ∧ (15 : Byte).toNat = (15 : EntryNo).val ∧
    (0 : Byte).toNat = 0 ∧ 32 ≤ (32 : Byte).toNat ∧ (5 : Byte).toNat = s.config.address.toNat ∧ 1 ≤ (1 : Byte).toNat ∧
    (31 : Byte).toNat ≤ 31 ∧ (31 : Byte).toNat ≠ s.config.address.toNat ∧ s.subs[(0 : EntryNo)].state ≠ .idle ∧
    s.subs[(15 : EntryNo)].state = .idle ∧
    (s.subs[(0 : EntryNo)].source = (9 : Byte).setWidth 5 ∧ s.subs[(0 : EntryNo)].tag = 2) ∧
    (∀ d : EntryNo, d ≠ 15 → s.subs[d].state ≠ .idle →
      ¬ (s.subs[d].source = (9 : Byte).setWidth 5 ∧ s.subs[d].tag = 3)) :=
  ⟨fun a b c => ⟨takes_of _ _ _ rfl, takes_of _ _ _ rfl⟩, by decide, by decide, by decide, by decide, by decide, by decide,
    by decide, by decide, by decide, by decide, by decide, by decide, by decide +kernel, by decide +kernel,
    by decide +kernel, by decide +kernel⟩

theorem test_UnsubscribeFreesTheQueue_met :
    let s := code (following ready .waiting [stored])
    (∀ b, Takes s 0x31 [b]) ∧ 16 ≤ (16 : Byte).toNat ∧ (15 : Byte).toNat = (15 : EntryNo).val ∧
      s.subs[(15 : EntryNo)].state = .idle ∧ s.subs[(0 : EntryNo)].state ≠ .idle :=
  ⟨fun _ => takes_of _ _ _ rfl, by decide, by decide, by decide +kernel, by decide +kernel⟩

theorem test_ConsumingReadsReturnTheHead_met :
    let s := code { following ready .waiting [stored] with events := [{ event := .addressClash, cycle := none }] }
    (∀ b, Takes s 0x32 [b]) ∧ 16 ≤ (16 : Byte).toNat ∧ (15 : Byte).toNat = (15 : EntryNo).val ∧
      s.subs[(15 : EntryNo)].queue = [] ∧ s.subs[(0 : EntryNo)].queue = stored :: [] ∧ Takes s 0x40 [] ∧
      s.events = { event := .addressClash, cycle := none } :: [] ∧ (code ready).events = [] ∧ Takes (code ready) 0x40 [] :=
  ⟨fun _ => takes_of _ _ _ rfl, by decide, by decide, by decide +kernel, by decide +kernel, takes_of _ _ _ rfl, rfl, rfl,
    takes_of _ _ _ rfl⟩

theorem test_ReadsAnswerAndChangeNothing_met :
    Takes (code ready) 0x41 [] ∧ (∀ b, Takes (code ready) 0x42 [b] ∧ Takes (code ready) 0x43 [b] ∧
      Takes (code ready) 0x44 [b]) ∧ 8 ≤ (8 : Byte).toNat ∧ (7 : Byte).toNat = (7 : StreamNo).val ∧ 16 ≤ (16 : Byte).toNat ∧
      (15 : Byte).toNat = (15 : EntryNo).val ∧ 48 ≤ (48 : Byte).toNat ∧ (47 : Byte).toNat = (47 : SlotNo).val ∧
      (probing (.slotEnd 4) Stream.reset 2).lanes[(0 : LaneNo)] = some { stream := 0, slot := 4, cleanCount := 2 } :=
  ⟨takes_of _ _ _ rfl, fun _ => ⟨takes_of _ _ _ rfl, takes_of _ _ _ rfl, takes_of _ _ _ rfl⟩, by decide, by decide,
    by decide, by decide, by decide, by decide, by decide +kernel⟩

theorem test_UnknownCodeDrawsBadCode_met :
    Takes (code ready) 0x45 [] ∧
      (0x45 : Byte) ∉ ([0x10, 0x11, 0x12, 0x1F, 0x20, 0x21, 0x22, 0x30, 0x31, 0x32, 0x40, 0x41, 0x42, 0x43, 0x44] : List Byte) :=
  ⟨takes_of _ _ _ rfl, by decide⟩

theorem test_RefusalChangesOnlyTheLink_met :
    (RequestCode.serve .start [] State.reset).1.status ≠ .ok ∧
      (RequestCode.serve .readEvent [] { ready with events := [{ event := .addressClash, cycle := none }] }).1.commit ≠
        none := by decide +kernel

theorem test_BytesTakeTheRequestTheySpell_met :
    (code ready).resetHeld = false ∧ (code ready).link = .code ∧ RequestCode.ofByte 0x45 = none := ⟨rfl, rfl, rfl⟩

/-- A response of two bytes, before its first and before its last byte, and each other phase. -/
theorem test_TransactionPhases_met :
    let t : Taken := { code := 0x11, status := .ok, response := [], commit := none }
    let r : Taken := { code := 0x40, status := .ok, response := [1, 2], commit := none }
    (({ code ready with link := .turnaround t }).resetHeld = false ∧ ({ code ready with link := .status t }).link = .status t ∧
      t.response = [] ∧ r.response ≠ [] ∧ (responding ready [1, 2] none 0).link = .response r 0 ∧
      0 + 1 < r.response.length ∧ r.response.length ≤ 1 + 1 ∧ r.commit = none ∧ ready.link = .idle ∧
      (responding ready [1, 2] none 0).selectLow = true) ∧
    (ready.selectLow = false ∧ (code ready).selectLow = true ∧ ({ State.reset with resetHeld := true }).resetHeld = true) := by
  decide +kernel

/-- A pending commit of an event and of a block, at the last response byte; one byte earlier; and no pending commit. -/
theorem test_LastResponseByteCommits_met :
    let e : EventRecord := { event := .addressClash, cycle := none }
    let s := responding { ready with events := [e] } e.bytes (some .eventQueue) 5
    let b := responding (following ready .waiting [stored]) stored.bytes (some (.receiveQueue 0)) 31
    s.resetHeld = false ∧ 5 + 1 = e.bytes.length ∧ s.events = e :: [] ∧ 31 + 1 = stored.bytes.length ∧
      b.subs[(0 : EntryNo)].queue = stored :: [] ∧ 4 + 1 ≠ e.bytes.length ∧ (code ready).link = .code := by
  decide +kernel

/-! ### The cycle and the beacon unit -/

theorem test_CycleStartAdvancesAndDraws_met :
    Due (active .cycleStart) .cycleStart (line .cycleStart) ∧ (active .cycleStart).config.beaconEligible = true ∧
      Due (settling .cycleStart) .cycleStart (line .cycleStart) ∧ (settling .cycleStart).station ≠ .active :=
  ⟨due_of _ _ _ (by decide +kernel), rfl, due_of _ _ _ (by decide +kernel), by decide⟩

/-- Positions 0 and 7, drawn and not heard, drawn and heard, and not drawn. -/
theorem test_BeaconPositionSendsUnlessHeard_met :
    Due (active (.positionOpen 0)) (.positionOpen 0) (line (.positionOpen 0)) ∧
    Due { active (.positionOpen 7) with drawnPosition := some 7 } (.positionOpen 7) (line (.positionOpen 7)) ∧
    (active (.positionOpen 0)).drawnPosition ≠ some 0 ∧ (active (.positionOpen 7)).beaconHeard = false ∧
    Due { active (.positionOpen 7) with drawnPosition := some 7, beaconHeard := true } (.positionOpen 7)
      (line (.positionOpen 7)) :=
  ⟨due_of _ _ _ (by decide +kernel), due_of _ _ _ (by decide +kernel), by decide, rfl, due_of _ _ _ (by decide +kernel)⟩

/-- Position 2 is open from 24000 to 36000: a jam report at either end is in it, and one after it is not. -/
theorem test_OwnBeaconOutcome_met :
    let x : Transmission := { frame := .beacon (beacon 3), stage := .sending }
    let s := jammed { active (.positionClose 2) with tx := some x } 24000
    let c := jammed { ({ leaving (.positionClose 2) with map := Vector.replicate 48 .free }) with tx := some x } 36001
    (Due s (.positionClose 2) (line (.positionClose 2)) ∧ s.tx = some x ∧ x.stage ≠ .handedOver ∧
      (∃ j ∈ s.reports.jams, 0 + 12000 * ((2 : Position).val : Int) ≤ j ∧ j ≤ 0 + 12000 * ((2 : Position).val : Int) + 12000) ∧
      s.station ≠ .leaving) ∧
    (Due c (.positionClose 2) (line (.positionClose 2)) ∧ c.tx = some x ∧ c.station = .leaving ∧
      (∀ j ∈ c.reports.jams,
        ¬ (0 + 12000 * ((2 : Position).val : Int) ≤ j ∧ j ≤ 0 + 12000 * ((2 : Position).val : Int) + 12000)) ∧
      ∀ (k : SlotNo) (i : StreamNo) (d : Nat) (f : Bool), c.map[k] ≠ .mine i d f) :=
  ⟨⟨due_of _ _ _ (by decide +kernel), rfl, by decide, by decide +kernel, by decide⟩,
    due_of _ _ _ (by decide +kernel), rfl, rfl, by decide +kernel, fun k i d f => by simp [jammed]⟩

/-- The same position heard SILENT, COLLIDED, with a beacon of timeline 3 whose first bit lies at 25000, with one 50 ns
late, and with a foreign one. -/
theorem test_HeardPositionIsTakenByClass_met :
    let t := line (.positionClose 2)
    let s := active (.positionClose 2)
    let heard := fun (f : Address) (time : Time) => { s with reports := { Reports.empty with
      frames := [{ frame := some (.beacon (beacon f)), firstBit := time, lastBit := time + 5600 }] } }
    Due s (.positionClose 2) t ∧ s.tx = none ∧ s.positionClass t 2 = .silent ∧
      (jammed s 36000).positionClass t 2 = .collided ∧
      (heard 3 25000).positionClass t 2 = .clean (.own (beacon 3) 25000) ∧ (heard 3 25050).positionClass t 2 = .damaged ∧
      (heard 9 25000).positionClass t 2 = .clean (.foreign (beacon 9)) :=
  ⟨due_of _ _ _ (by decide +kernel), rfl, by decide +kernel, by decide +kernel, by decide +kernel, by decide +kernel,
    by decide +kernel⟩

/-- A division from 0 to 10: a jam at 10 and at 11; no carrier; a frame of exactly its length; two frames. -/
theorem test_ClassIsTheFirstLineThatApplies_met :
    let f : FrameReport := { frame := none, firstBit := 0, lastBit := 10 }
    (∃ j ∈ ({ Reports.empty with jams := [10] } : Reports).jams, (0 : Time) ≤ j ∧ j ≤ 10) ∧
    (∀ j ∈ ({ Reports.empty with jams := [11] } : Reports).jams, ¬ ((0 : Time) ≤ j ∧ j ≤ 10)) ∧
    (∀ sp ∈ Reports.empty.spans none 10, ¬ (sp.begins < 10 ∧ 0 < sp.ends)) ∧
    (∀ sp ∈ ({ Reports.empty with frames := [f], stretches := [{ begins := 0, ends := 10 }] } : Reports).spans none 10,
      sp.begins < 10 → 0 < sp.ends → f.firstBit ≤ max sp.begins 0 ∧ min sp.ends 10 ≤ f.lastBit) ∧
    ((0 : Time) ≤ f.firstBit ∧ f.lastBit ≤ 10) ∧
    (∃ sp ∈ Reports.empty.spans (some 9) 10, sp.begins < 10 ∧ (0 : Time) < sp.ends) := by
  decide +kernel

/-- Position 2's lead-in is at 25000: first bits 49 and 50 ns from it, another position, and another founder. -/
theorem test_ClassIsTheFirstLineThatApplies_beacon_met :
    let f : Time → FrameReport := fun time => { frame := some (.beacon (beacon 3)), firstBit := time, lastBit := time + 5600 }
    (∀ b : BeaconFrame, ({ frame := none, firstBit := 0, lastBit := 10 } : FrameReport).frame ≠ some (.beacon b)) ∧
    (f 25049).frame = some (.beacon (beacon 3)) ∧ (beacon 3).founder = (line .cycleEnd).founder ∧
    (beacon 3).position = 2 ∧ |(f 25049).firstBit - (0 + 12000 * ((2 : Position).val : Int) + 1000)| < 50 ∧
    50 ≤ |(f 24950).firstBit - (0 + 12000 * ((2 : Position).val : Int) + 1000)| ∧ (beacon 3).position ≠ 3 ∧
    (beacon 9).founder ≠ (line .cycleEnd).founder := by
  exact ⟨fun b => by simp, rfl, rfl, rfl, by decide, by decide, by decide, by decide⟩

/-! ### Claiming -/

/-- One stream joins with both lanes idle and 48 slots FREE; outside ACTIVE nothing is served; two streams with one FREE
slot. -/
theorem test_SlotPhaseStartGrantsLanesInOrder_met :
    let s := claiming .slotPhaseStart
    (Due s .slotPhaseStart (line .slotPhaseStart) ∧ Legal s ∧ s.station = .active ∧ s.map[(47 : SlotNo)] = .free ∧
      s.lanes[(0 : LaneNo)] = none ∧ s.lanes[(1 : LaneNo)] = none ∧
      s.claimQueue ++ (List.finRange 8).filter (fun i =>
        s.streams[i].state == .claiming && s.streams[i].backoff - 1 == 0 && !s.claimQueue.contains i &&
          !s.laneCarries 0 i && !s.laneCarries 1 i && decide (s.streams[i].held.length < s.streams[i].wanted)) = 0 :: []) ∧
    (Due (settling .slotPhaseStart) .slotPhaseStart (line .slotPhaseStart) ∧
      (settling .slotPhaseStart).station ≠ .active) :=
  ⟨⟨due_of _ _ _ (by decide +kernel), legal_claiming, rfl, by decide +kernel, by decide +kernel, by decide +kernel,
    by decide +kernel⟩, due_of _ _ _ (by decide +kernel), by decide⟩

/-- Lane 0 busy and stream 1 waiting; then two streams waiting with both lanes idle. -/
theorem test_SlotPhaseStartGrantsLanesInOrder_lanes_met :
    let c : Machine.Stream := { Stream.reset with state := .claiming, tag := 1 }
    let s := probing .slotPhaseStart Stream.reset 0
    let one := { s with streams := s.streams.set 1 c, claimQueue := [1] }
    let z := claiming .slotPhaseStart
    let two := { z with streams := z.streams.set 1 c, claimQueue := [1, 0] }
    (Legal one ∧ one.lanes[(0 : LaneNo)].isSome = true ∧ one.lanes[(1 : LaneNo)] = none) ∧
    (Legal two ∧ two.lanes[(0 : LaneNo)] = none ∧ two.lanes[(1 : LaneNo)] = none ∧ two.claimQueue = 1 :: (0 :: [])) :=
  ⟨⟨legal_of_check (by decide +kernel), by decide +kernel, by decide +kernel⟩,
    legal_of_check (by decide +kernel), by decide +kernel, by decide +kernel, rfl⟩

/-- No FREE entry, a stream in the queue with 31 deferrals, and one with 30. -/
theorem test_SlotPhaseStartWithoutFreeEntryDefers_met :
    let s := fun (n : Nat) => { working .slotPhaseStart { Stream.reset with state := .claiming, deferral := n } .free with
      map := Vector.replicate 48 (.held none 0), claimQueue := [0] }
    (∀ n : Fin 2, Due (s (30 + n.val)) .slotPhaseStart (line .slotPhaseStart) ∧ (s (30 + n.val)).station = .active) ∧
      Legal (s 31) ∧ (∀ k : SlotNo, (s 31).map[k] ≠ .free) ∧ (s 31).streams[(0 : StreamNo)].deferral = 31 ∧
      (s 30).streams[(0 : StreamNo)].deferral + 1 < 32 :=
  ⟨fun n => ⟨due_of _ _ _ ⟨rfl, rfl, rfl, rfl⟩, rfl⟩, legal_of_check (by decide +kernel), by decide +kernel,
    by decide +kernel, by decide +kernel⟩

/-- Two streams in the queue with 31 deferrals, one of them holding a slot. -/
theorem test_SlotPhaseStartWithoutFreeEntryDefers_two_met :
    let c : Machine.Stream := { Stream.reset with state := .claiming, deferral := 31 }
    let s := working .slotPhaseStart { c with held := [4], wanted := 2 } (.mine 0 0 false)
    let z := { s with
      map := (Vector.replicate 48 (.held none 0)).set 4 (.mine 0 0 false), claimQueue := [1, 0]
      streams := s.streams.set 1 { c with tag := 1 } }
    Due z .slotPhaseStart (line .slotPhaseStart) ∧ Legal z ∧ z.station = .active ∧ ∀ k : SlotNo, z.map[k] ≠ .free :=
  ⟨due_of _ _ _ ⟨rfl, rfl, rfl, rfl⟩, legal_of_check (by decide +kernel), rfl, by decide +kernel⟩

/-! ### Slot occurrences -/

/-- A PROBE entry, a final-pending one, MINE with and without a block, and a FREE one, in slots 4, 0 and 47. -/
theorem test_SlotBeginHandsOverByEntry_met :
    let p := probing (.slotBegin 4) Stream.reset 0
    (Due p (.slotBegin 4) (line (.slotBegin 4)) ∧ p.map[(4 : SlotNo)] = .probe 0 0 ∧ p.station = .active) ∧
    (Due (leaving (.slotBegin 4)) (.slotBegin 4) (line (.slotBegin 4)) ∧
      (leaving (.slotBegin 4)).map[(4 : SlotNo)] = .mine 0 0 true ∧ (leaving (.slotBegin 4)).station = .leaving) ∧
    (Due (owning (.slotBegin 4) [block 1] 0) (.slotBegin 4) (line (.slotBegin 4)) ∧
      (owning (.slotBegin 4) [block 1] 0).map[(4 : SlotNo)] = .mine 0 0 false ∧
      (owning (.slotBegin 4) [block 1] 0).streams[(0 : StreamNo)].queue = { buffer := 0, data := block 1 } :: [] ∧
      (owning (.slotBegin 4) [] 0).streams[(0 : StreamNo)].queue = []) ∧
    (Due (active (.slotBegin 47)) (.slotBegin 47) (line (.slotBegin 47)) ∧
      (active (.slotBegin 47)).map[(47 : SlotNo)] = .free) :=
  ⟨⟨due_of _ _ _ (by decide +kernel), by decide +kernel, rfl⟩, ⟨due_of _ _ _ (by decide +kernel), by decide +kernel, rfl⟩,
    ⟨due_of _ _ _ (by decide +kernel), by decide +kernel, by decide +kernel, by decide +kernel⟩,
    due_of _ _ _ (by decide +kernel), by decide +kernel⟩

/-- Slot 4 is open from 168000 to 186000. -/
theorem test_HeardSlotWithoutFrameMovesItsEntry_met :
    let t := line (.slotEnd 4)
    let s := active (.slotEnd 4)
    Due s (.slotEnd 4) t ∧ s.tx = none ∧ s.map[(4 : SlotNo)].owned = false ∧ s.slotClass t 4 = .silent ∧
      (jammed s 168000).slotClass t 4 = .collided ∧ (jammed s 186000).slotClass t 4 = .collided ∧
      ({ s with carrier := some 185999 }).slotClass t 4 = .damaged :=
  ⟨due_of _ _ _ (by decide +kernel), rfl, by decide +kernel, by decide +kernel, by decide +kernel, by decide +kernel,
    by decide +kernel⟩

/-- A frame of source 9, tag 2, with no subscription to it, with one that has room, and with one that is full; and a frame
whose owner is the station's own address. -/
theorem test_CleanSlotFeedsMapAndSubscription_met :
    let t := line (.slotEnd 4)
    let s := active (.slotEnd 4)
    let f : SlotFrame := { mark := .data, owner := 9, tag := 2, sequence := 6, payload := block 1 }
    let room := hearing (following s .active (List.replicate 15 stored)) .data
    let full := following s .active (List.replicate 16 stored)
    Due (hearing s .data) (.slotEnd 4) t ∧ (hearing s .data).slotClass t 4 = .clean f ∧
      (∀ e : EntryNo, (hearing s .data).subs[e].state = .idle) ∧ SubsLegal room ∧ room.slotClass t 4 = .clean f ∧
      room.subs[(0 : EntryNo)].source = f.owner ∧ room.subs[(0 : EntryNo)].tag = f.tag ∧
      room.subs[(0 : EntryNo)].queue.length < 16 ∧ 0 < room.freeBuffers ∧ 16 ≤ full.subs[(0 : EntryNo)].queue.length ∧
      (∀ m : Mark, (hearing s m).slotClass t 4 = .clean { f with mark := m }) ∧
      (hearingFrom s 5 .data).slotClass t 4 = .clean { f with owner := 5 } ∧ s.config.address = 5 :=
  ⟨due_of _ _ _ (by decide +kernel), by decide +kernel, by decide +kernel, .of_checks (by decide +kernel), by decide +kernel,
    by decide +kernel, by decide +kernel, by decide +kernel, by decide +kernel, by decide +kernel,
    fun m => by cases m <;> decide +kernel, by decide +kernel, rfl⟩

/-- DATA in transit sent whole, DATA jammed with each disposal, and FILL. -/
theorem test_OwnDataAndFillOutcomes_met :
    let s := fun d => inFlight (owning (.slotEnd 4) [] 0) d
    (∀ d, Due (sending (s d) .data .sending) (.slotEnd 4) (line (.slotEnd 4)) ∧
      (s d).map[(4 : SlotNo)] = .mine 0 0 false ∧
      (s d).inTransit = some { stream := 0, slot := 4, block := flying, disposal := d }) ∧
    Legal (sending (s .returnToQueue) .data .jamming) ∧
    (false = true ↔ (Stage.sending = .jamming ∨ ∃ j ∈ (s .freeBuffer).reports.jams,
      (0 : Time) + 96000 + 18000 * ((4 : SlotNo).val : Int) ≤ j ∧
        j ≤ 0 + 96000 + 18000 * ((4 : SlotNo).val : Int) + 18000)) ∧
    Due (sending (owning (.slotEnd 4) [] 1) .fill .sending) (.slotEnd 4) (line (.slotEnd 4)) :=
  ⟨fun d => ⟨due_of _ _ _ ⟨rfl, rfl, rfl, rfl⟩, by cases d <;> decide +kernel, rfl⟩, legal_of_check (by decide +kernel),
    by decide +kernel, due_of _ _ _ (by decide +kernel)⟩

/-- Slot 4 is open from 168000 to 186000. A LIVE stream's FILL and DATA jammed; and in LEAVING the last slot of a CLOSING
stream, its DATA to be freed, with a jam report at the very end and no mismatch of its own. -/
theorem test_SecondCollisionReleasesTheSlot_met :
    let s := sending (owning (.slotEnd 4) [] 1) .fill .jamming
    let d := sending (inFlight (owning (.slotEnd 4) [] 1) .returnToQueue) .data .jamming
    let e := { inFlight (leaving (.slotEnd 4)) .freeBuffer with map := (active .cycleEnd).map.set 4 (.mine 0 1 true) }
    let c := jammed (sending e .data .sending) 186000
    (Due s (.slotEnd 4) (line (.slotEnd 4)) ∧ s.station = .active ∧ s.map[(4 : SlotNo)] = .mine 0 1 false ∧
      s.streams[(0 : StreamNo)].state = .live ∧ Due d (.slotEnd 4) (line (.slotEnd 4)) ∧ Legal s ∧ Legal d) ∧
    (Due c (.slotEnd 4) (line (.slotEnd 4)) ∧ c.station = .leaving ∧ c.map[(4 : SlotNo)] = .mine 0 1 true ∧
      c.streams[(0 : StreamNo)].state = .closing ∧ c.streams[(0 : StreamNo)].held.erase 4 = [] ∧ Legal c ∧
      (∃ j ∈ c.reports.jams, (0 : Time) + 96000 + 18000 * ((4 : SlotNo).val : Int) ≤ j ∧
        j ≤ 0 + 96000 + 18000 * ((4 : SlotNo).val : Int) + 18000) ∧
      ∀ m : SlotNo, m ≠ 4 → c.map[m].isMine = false) :=
  ⟨⟨due_of _ _ _ (by decide +kernel), rfl, by decide +kernel, by decide +kernel, due_of _ _ _ (by decide +kernel),
    legal_of_check (by decide +kernel), legal_of_check (by decide +kernel)⟩,
    due_of _ _ _ ⟨rfl, rfl, rfl, rfl⟩, rfl, by decide +kernel, by decide +kernel, by decide +kernel,
    legal_of_check (by decide +kernel), by decide +kernel, by decide +kernel⟩

/-- The last slot of the only stream in LEAVING, and the same in ACTIVE. -/
theorem test_FinalGivesTheSlotUp_met :
    let s := sending (leaving (.slotEnd 4)) .final .sending
    let a := sending (ending (.slotEnd 4)) .final .sending
    (Due s (.slotEnd 4) (line (.slotEnd 4)) ∧ s.map[(4 : SlotNo)] = .mine 0 0 true ∧
      s.streams[(0 : StreamNo)].state = .closing ∧ s.station = .leaving ∧
      ∀ m : SlotNo, m ≠ 4 → s.map[m].isMine = false) ∧
    (Due a (.slotEnd 4) (line (.slotEnd 4)) ∧ a.station ≠ .leaving) :=
  ⟨⟨due_of _ _ _ (by decide +kernel), by decide +kernel, by decide +kernel, rfl, by decide +kernel⟩,
    due_of _ _ _ (by decide +kernel), by decide⟩

/-- The second and the third clean claim, and a collided one after eight attempts. -/
theorem test_ClaimOutcomeMovesTheProbe_met :
    let s := fun n => sending (probing (.slotEnd 4) { Stream.reset with attempts := 8 } n) .claim .sending
    (∀ n : Fin 3, Due (s n.val) (.slotEnd 4) (line (.slotEnd 4)) ∧ (s n.val).station = .active ∧
      (s n.val).lanes[(0 : LaneNo)] = some { stream := 0, slot := 4, cleanCount := n.val }) ∧ Legal (s 1) ∧ Legal (s 2) ∧
      (s 0).streams[(0 : StreamNo)].attempts < 9 ∧ (own .claim).mark = .claim :=
  ⟨fun n => ⟨due_of _ _ _ ⟨rfl, rfl, rfl, rfl⟩, rfl, by revert n; decide +kernel⟩, legal_of_check (by decide +kernel),
    legal_of_check (by decide +kernel), by decide +kernel, rfl⟩

/-- The tenth collision, by a mismatch and by a jam report alone; a CLAIM whose lane has given up; and a clean one in
LEAVING with no slot left. -/
theorem test_AttemptLimitAndDiscardedClaims_met :
    let s := sending (probing (.slotEnd 4) { Stream.reset with attempts := 9 } 2) .claim .jamming
    let d := sending (active (.slotEnd 4)) .claim .jamming
    (Legal s ∧ Due s (.slotEnd 4) (line (.slotEnd 4)) ∧
      s.lanes[(0 : LaneNo)] = some { stream := 0, slot := 4, cleanCount := 2 } ∧
      s.streams[(0 : StreamNo)].attempts = 9) ∧
    let j := jammed (sending (probing (.slotEnd 4) { Stream.reset with attempts := 9 } 2) .claim .sending) 168000
    let c := sending { active (.slotEnd 4) with station := .leaving } .claim .sending
    (Legal d ∧ Due d (.slotEnd 4) (line (.slotEnd 4)) ∧ ∀ l : LaneNo, d.lanes[l] = none) ∧
    (Legal j ∧ Due j (.slotEnd 4) (line (.slotEnd 4)) ∧
      ∃ i ∈ j.reports.jams, (0 : Time) + 96000 + 18000 * ((4 : SlotNo).val : Int) ≤ i ∧
        i ≤ 0 + 96000 + 18000 * ((4 : SlotNo).val : Int) + 18000) ∧
    (Legal c ∧ Due c (.slotEnd 4) (line (.slotEnd 4)) ∧ (∀ l : LaneNo, c.lanes[l] = none) ∧ c.station = .leaving ∧
      ∀ m : SlotNo, c.map[m].isMine = false) :=
  ⟨⟨legal_of_check (by decide +kernel), due_of _ _ _ (by decide +kernel), by decide +kernel, by decide +kernel⟩,
    ⟨legal_of_check (by decide +kernel), due_of _ _ _ (by decide +kernel), by decide +kernel⟩,
    ⟨legal_of_check (by decide +kernel), due_of _ _ _ (by decide +kernel), by decide +kernel⟩,
    legal_of_check (by decide +kernel), due_of _ _ _ ⟨rfl, rfl, rfl, rfl⟩, by decide +kernel, rfl, by decide +kernel⟩

/-! ### The cycle end -/

/-- Holdover 6 and settle 2 are the last values short of the next two statements. -/
theorem test_CycleEndCountsQuietAndHoldover_met :
    let s := { settling .cycleEnd with settle := 2, holdover := 6 }
    Due s .cycleEnd (line .cycleEnd) ∧ s.station = .settle ∧ 1 < s.settle ∧ s.holdover < 7 ∧
      Due { active .cycleEnd with beaconHeard := true, holdover := 7 } .cycleEnd (line .cycleEnd) :=
  ⟨due_of _ _ _ (by decide +kernel), rfl, by decide, by decide, due_of _ _ _ (by decide +kernel)⟩

theorem test_SettleCountRunsOutIntoActive_met :
    let s := { settling .cycleEnd with settle := 1, holdover := 6 }
    Due s .cycleEnd (line .cycleEnd) ∧ s.station = .settle ∧ s.settle = 1 ∧ s.holdover < 7 :=
  ⟨due_of _ _ _ (by decide +kernel), rfl, rfl, by decide⟩

/-- From ACTIVE and from LEAVING. -/
theorem test_EighthUnbeaconedCycleLosesSynchronization_met :
    let s := { owning .cycleEnd [block 1] 0 with holdover := 7 }
    let l := { leaving .cycleEnd with holdover := 7 }
    (Legal s ∧ Due s .cycleEnd (line .cycleEnd) ∧ s.beaconHeard = false ∧ s.holdover = 7) ∧
      (Legal l ∧ Due l .cycleEnd (line .cycleEnd) ∧ l.beaconHeard = false ∧ l.station = .leaving) :=
  ⟨⟨legal_of_check (by decide +kernel), due_of _ _ _ (by decide +kernel), rfl, rfl⟩,
    legal_of_check (by decide +kernel), due_of _ _ _ (by decide +kernel), rfl, rfl⟩

/-! ### What the line reports -/

theorem test_CarrierReportsHoldAndRestart_met :
    listening.carrier = none ∧ listening.station = .listen ∧ listening.listenTimer = .counting 3000 ∧
      ({ listening with carrier := some 0, listenTimer := .held 3000 }).carrier = some 0 ∧
      (active .cycleEnd).station.onTimeline = true ∧ ready.station = .ready ∧
      ({ active .cycleEnd with carrier := some 0 }).carrier = some 0 := by decide +kernel

/-- Frames that begin just before START and just at it, and frames under way when a receiver that was on starts afresh,
just begun then and just ended; another start byte. -/
theorem test_CleanBeaconInListenIsAdopted_met :
    listening.resetHeld = false ∧ listening.station = .listen ∧ listening.tx = none ∧ ready.station = .ready ∧
      Frame.parse 0xAA3A beaconBytes = some (.beacon (beacon 3)) ∧
      (∀ b : BeaconFrame, Frame.parse 0xAA3A [] ≠ some (.beacon b)) ∧ (0xAA00 : Half) ≠ 0xAA5C ∧
      (0xAA00 : Half) ≠ 0xAA3A ∧ ¬ Missed listening.receiver 1000 6600 ∧
      Missed (.switchedOn 1001) 1000 6600 ∧ ¬ Missed (.switchedOn 1000) 1000 6600 ∧
      Missed (.restarted 1001) 1000 6600 ∧ Missed (.restarted 6599) 1000 6600 ∧
      ¬ Missed (.restarted 1000) 1000 6600 ∧ ¬ Missed (.restarted 6600) 1000 6600 ∧
      ({ active .cycleEnd with receiver := .restarted 6599 }).station ≠ .listen :=
  ⟨rfl, rfl, rfl, rfl, test_beacon_frame,
    fun b => by simp [Frame.parse, FrameKind.ofPattern, BeaconFrame.parse, checkVerifies, FrameKind.startPattern,
      preamble, FrameKind.startByte], by decide, by decide, by simp [Missed, listening, ready, State.reset],
    by simp [Missed], by simp [Missed], by simp [Missed], by simp [Missed], by simp [Missed], by simp [Missed], by decide⟩

/-- On timeline 3 the beacon of founder 3 waits for its class; on timeline 2 it is foreign and higher. -/
theorem test_FrameReportsOnATimeline_met :
    let low := { active .cycleEnd with timeline := some { line .cycleEnd with founder := 2 } }
    (active .cycleEnd).resetHeld = false ∧ (active .cycleEnd).station.onTimeline = true ∧
      (active .cycleEnd).timeline = some (line .cycleEnd) ∧ (active .cycleEnd).tx = none ∧
      (active .cycleEnd).receiver = .clear ∧
      (beacon 3).founder = (line .cycleEnd).founder ∧ low.timeline = some { line .cycleEnd with founder := 2 } ∧
      (2 : Address) < (beacon 3).founder ∧ (sending (active .cycleEnd) .claim .sending).tx.isSome = true := by
  decide +kernel

/-- A frame of founder 3 on timeline 4, in ACTIVE with DATA handed over and a block in transit, and in LEAVING. -/
theorem test_LowerFounderMerges_met :
    let t : Timeline := { line (.slotEnd 4) with founder := 4 }
    let s := { sending (inFlight (owning (.slotEnd 4) [] 0) .returnToQueue) .data .handedOver with timeline := some t }
    let l := { leaving (.slotEnd 4) with timeline := some t }
    (Legal s ∧ s.resetHeld = false ∧ s.timeline = some t ∧ (∀ x, s.tx = some x → x.stage = .handedOver) ∧
      s.receiver = .clear ∧ Frame.parse 0xAA3A beaconBytes = some (.beacon (beacon 3)) ∧ (beacon 3).founder < t.founder ∧
      s.station ≠ .leaving) ∧
    (Legal l ∧ l.timeline = some t ∧ (∀ x, l.tx = some x → x.stage = .handedOver) ∧ l.station = .leaving) :=
  ⟨⟨legal_of_check (by decide +kernel), rfl, rfl, fun x h => by cases h; rfl, rfl, test_beacon_frame, by decide, by decide⟩,
    legal_of_check (by decide +kernel), rfl, fun x h => (by cases h), rfl⟩

theorem test_LeadInMismatchAndJam_met :
    (active .cycleEnd).resetHeld = false ∧ (active .cycleEnd).tx = none ∧ (active .cycleEnd).station.onTimeline = true ∧
      listening.station = .listen ∧ ready.station = .ready ∧
      (sending (active .cycleEnd) .data .handedOver).tx = some { frame := .slot (own .data), stage := .handedOver } :=
  ⟨rfl, rfl, rfl, rfl, rfl, rfl⟩

/-- The timer counting in a founder-eligible station and in another, held, and stopped. -/
theorem test_ListenTimerExpiryFoundsOrWaits_met :
    let n := { listening with config := { cfg with founderEligible := false }, listenTimer := .counting 0 }
    (listening.resetHeld = false ∧ Legal listening ∧ listening.station = .listen ∧
      listening.listenTimer = .counting 3000 ∧ listening.config.founderEligible = true) ∧
    (Legal n ∧ n.listenTimer = .counting 0 ∧ n.config.founderEligible = false) ∧
    (Legal ready ∧ ready.station ≠ .listen) :=
  ⟨⟨rfl, legal_of_check (by decide +kernel), rfl, rfl, rfl⟩, ⟨legal_of_check (by decide +kernel), rfl, rfl⟩,
    legal_of_check (by decide +kernel), by decide⟩

/-! ### Whole-machine rules -/

theorem test_FrameReceivedAsSent_met :
    (own .claim).owner ≠ 0 ∧ (beacon 3).sender ≠ 0 ∧ (beacon 3).founder ≠ 0 := by decide

/-- An event is posted, the queue is emptied by a reset, and a commit takes the head. -/
theorem test_EventsLeaveOnlyByCommitOrReset_met :
    (∃ t, exec .start (code ready) = .next t ∧ t.events ≠ []) ∧
    (∃ t, exec .resetInputAsserted { ready with events := [{ event := .addressClash, cycle := none }] } = .next t ∧
      t.events = []) ∧
    ∃ t, exec .consumingReadCommit (responding { ready with events := [{ event := .addressClash, cycle := none }] }
      (EventRecord.bytes { event := .addressClash, cycle := none }) (some .eventQueue) 5) = .next t ∧ t.events = [] :=
  ⟨⟨_, rfl, by decide +kernel⟩, ⟨_, rfl, rfl⟩, _, rfl, by decide +kernel⟩

theorem test_CountersFallOnlyByReset_met :
    ∃ t, exec (.slotOccurrenceEnd 4) (jammed (active (.slotEnd 4)) 168000) = .next t ∧ t.station ≠ .unconfigured ∧
      t.counters.collidedSlots = 1 :=
  ⟨_, rfl, by decide +kernel, by decide +kernel⟩

/-- One state meets the hypotheses of every invariant, and its step answers a next state. -/
theorem test_StepKeeps_met :
    let s := { owning (.slotBegin 4) [block 1] 0 with pending := [.slotOccurrenceBegin 4] }
    Legal s ∧ EventsLegal s ∧ StationLegal s ∧ ClaimsLegal s ∧ SubsLegal s ∧ PoolLegal s ∧ LinkLegal s ∧
      ∃ t, step s = .next t ∧ t.inTransit.isSome = true :=
  have h : Legal { owning (.slotBegin 4) [block 1] 0 with pending := [.slotOccurrenceBegin 4] } :=
    legal_of_check (by decide +kernel)
  ⟨h, h.events, h.station, h.claims, h.subs, h.pool, h.link, _, rfl, by decide +kernel⟩

end Sys2Proof.Tests
end

section
/-! PROOF. The station part of a state: the fields that the laws of the station speak of, with the station counters,
and the operations of the model that leave them. -/

namespace Sys2Proof.Machine

open Sys2Proof.Safety

/-- What the laws of the station and the station counters speak of. -/
structure StationView where
  station       : StationState
  config        : Configuration
  timeline      : Option Timeline
  holdover      : Nat
  settle        : Nat
  listenTimer   : ListenTimer
  carrier       : Option Time
  drawnPosition : Option Position
  beaconHeard   : Bool
  tx            : Option Transmission
  sessionFlag   : Bool
  counters      : Counters

/-- The station part of a state. -/
def State.stationView (s : State) : StationView :=
  { station := s.station, config := s.config, timeline := s.timeline, holdover := s.holdover, settle := s.settle,
    listenTimer := s.listenTimer, carrier := s.carrier, drawnPosition := s.drawnPosition,
    beaconHeard := s.beaconHeard, tx := s.tx, sessionFlag := s.sessionFlag, counters := s.counters }

/-- A state with this station part, and every other field at its reset value. -/
def StationView.toState (v : StationView) : State :=
  { State.reset with
    station := v.station, config := v.config, timeline := v.timeline, holdover := v.holdover, settle := v.settle
    listenTimer := v.listenTimer, carrier := v.carrier, drawnPosition := v.drawnPosition
    beaconHeard := v.beaconHeard, tx := v.tx, sessionFlag := v.sessionFlag, counters := v.counters }

/-- The laws of the station, on a station part. -/
abbrev StationView.Legal (v : StationView) : Prop := StationLegal v.toState

/-- The laws of the station speak of the station part alone. -/
theorem stationLegal_iff (s : State) : StationLegal s ↔ s.stationView.Legal :=
  ⟨fun ⟨h0, h1, h2, h3, h4, h5, h6, h7, h8, h9, h10, h11, h12, h13⟩ =>
    ⟨h0, h1, h2, h3, h4, h5, h6, h7, h8, h9, h10, h11, h12, h13⟩,
   fun ⟨h0, h1, h2, h3, h4, h5, h6, h7, h8, h9, h10, h11, h12, h13⟩ =>
    ⟨h0, h1, h2, h3, h4, h5, h6, h7, h8, h9, h10, h11, h12, h13⟩⟩

/-! ## Operations that leave the station part -/

/-- A chain of operations that each leave the station part leaves it. -/
theorem foldl_stationView {α : Type} (f : State → α → State) (h : ∀ s a, (f s a).stationView = s.stationView)
    (as : List α) (s : State) : (as.foldl f s).stationView = s.stationView := by
  induction as generalizing s with
  | nil => rfl
  | cons a as ih => exact (ih (f s a)).trans (h s a)

/-! ### Tables, draws, events and the pool -/

@[simp] theorem State.setEntry_stationView (s : State) (k : SlotNo) (e : MapEntry) :
    (s.setEntry k e).stationView = s.stationView := rfl
@[simp] theorem State.mapEntries_stationView (s : State) (f : SlotNo → MapEntry → MapEntry) :
    (s.mapEntries f).stationView = s.stationView := by simp only [State.mapEntries, State.stationView]
@[simp] theorem State.modStream_stationView (s : State) (i : StreamNo) (f : Stream → Stream) :
    (s.modStream i f).stationView = s.stationView := rfl
@[simp] theorem State.mapStreams_stationView (s : State) (f : StreamNo → Stream → Stream) :
    (s.mapStreams f).stationView = s.stationView := by simp only [State.mapStreams, State.stationView]
@[simp] theorem State.modSub_stationView (s : State) (e : EntryNo) (f : Subscription → Subscription) :
    (s.modSub e f).stationView = s.stationView := rfl
@[simp] theorem State.mapSubs_stationView (s : State) (f : Subscription → Subscription) :
    (s.mapSubs f).stationView = s.stationView := by simp only [State.mapSubs, State.stationView]
@[simp] theorem State.setLane_stationView (s : State) (l : LaneNo) (r : Option Lane) :
    (s.setLane l r).stationView = s.stationView := rfl
@[simp] theorem State.drawUsed_stationView (s : State) : s.drawUsed.stationView = s.stationView := rfl
@[simp] theorem State.post_stationView (s : State) (e : Event) : (s.post e).stationView = s.stationView := rfl
@[simp] theorem State.postAll_stationView (s : State) (es : List Event) :
    (s.postAll es).stationView = s.stationView := foldl_stationView _ State.post_stationView es s
@[simp] theorem State.release_stationView (s : State) (bs : List BufferNo) :
    (s.release bs).stationView = s.stationView := rfl
@[simp] theorem State.allocate_stationView (s : State) (b : BufferNo) :
    (s.allocate b).stationView = s.stationView := rfl
@[simp] theorem State.dropEvent_stationView (s : State) : s.dropEvent.stationView = s.stationView := rfl
@[simp] theorem State.clearMap_stationView (s : State) : s.clearMap.stationView = s.stationView :=
  s.mapEntries_stationView _
@[simp] theorem State.fillMap_stationView (s : State) : s.fillMap.stationView = s.stationView :=
  s.mapEntries_stationView _
@[simp] theorem State.mergeSummary_stationView (s : State) (summary : SlotFlags) :
    (s.mergeSummary summary).stationView = s.stationView := s.mapEntries_stationView _

/-! ### The receiver, the reports and the activity record -/

@[simp] theorem State.restartReceiver_stationView (s : State) (m : Time) :
    (s.restartReceiver m).stationView = s.stationView := rfl
@[simp] theorem State.abandonFrame_stationView (s : State) : s.abandonFrame.stationView = s.stationView := by
  unfold State.abandonFrame; split <;> rfl
@[simp] theorem State.hears_stationView (s : State) (time : Time) : (s.hears time).stationView = s.stationView := by
  unfold State.hears; split <;> rfl
@[simp] theorem State.switchOnReceiver_stationView (s : State) : s.switchOnReceiver.stationView = s.stationView := by
  unfold State.switchOnReceiver; split <;> rfl
@[simp] theorem State.openDivision_stationView (s : State) : s.openDivision.stationView = s.stationView := rfl
@[simp] theorem State.gatherFrame_stationView (s : State) (r : FrameReport) :
    (s.gatherFrame r).stationView = s.stationView := rfl
@[simp] theorem State.markActive_stationView (s : State) (k : SlotNo) :
    (s.markActive k).stationView = s.stationView := rfl
@[simp] theorem State.clearActivity_stationView (s : State) : s.clearActivity.stationView = s.stationView := rfl
@[simp] theorem State.rotateActivity_stationView (s : State) : s.rotateActivity.stationView = s.stationView := rfl

/-! ### The claim engine -/

@[simp] theorem State.emptyClaims_stationView (s : State) : s.emptyClaims.stationView = s.stationView := rfl
@[simp] theorem State.failStream_stationView (s : State) (i : StreamNo) (why : Reason) :
    (s.failStream i why).stationView = s.stationView := rfl
@[simp] theorem State.shortStream_stationView (s : State) (i : StreamNo) (why : Reason) :
    (s.shortStream i why).stationView = s.stationView := by unfold State.shortStream; split <;> rfl
@[simp] theorem State.countBackoffs_stationView (s : State) : s.countBackoffs.stationView = s.stationView :=
  s.mapStreams_stationView _
@[simp] theorem State.joinQueue_stationView (s : State) : s.joinQueue.stationView = s.stationView := rfl
@[simp] theorem State.grant_stationView (s : State) (l : LaneNo) (i : StreamNo) (k : SlotNo) :
    (s.grant l i k).stationView = s.stationView := rfl
@[simp] theorem State.serveLane_stationView (s : State) (l : LaneNo) :
    (s.serveLane l).stationView = s.stationView := by
  unfold State.serveLane
  split
  · split <;> rfl
  · rfl
  · rfl
@[simp] theorem State.countDeferrals_stationView (s : State) : s.countDeferrals.stationView = s.stationView :=
  s.mapStreams_stationView _
@[simp] theorem State.limitDeferral_stationView (s : State) (i : StreamNo) :
    (s.limitDeferral i).stationView = s.stationView := by
  unfold State.limitDeferral
  split
  · rfl
  · split
    · rfl
    · simp
@[simp] theorem State.serveClaims_stationView (s : State) : s.serveClaims.stationView = s.stationView := by
  have hl (u : State) : u.limitDeferrals.stationView = u.stationView :=
    foldl_stationView _ State.limitDeferral_stationView _ u
  unfold State.serveClaims State.serveLanes
  rw [hl]
  split <;> simp
@[simp] theorem State.winSlot_stationView (s : State) (l : LaneNo) (r : Lane) :
    (s.winSlot l r).stationView = s.stationView := rfl
@[simp] theorem State.goLive_stationView (s : State) (i : StreamNo) (k : SlotNo) :
    (s.goLive i k).stationView = s.stationView := by unfold State.goLive; split <;> rfl
@[simp] theorem State.limitAttempts_stationView (s : State) (i : StreamNo) :
    (s.limitAttempts i).stationView = s.stationView := by
  unfold State.limitAttempts
  split
  · rfl
  · split <;> simp
@[simp] theorem State.loseProbe_stationView (s : State) (l : LaneNo) (r : Lane) :
    (s.loseProbe l r).stationView = s.stationView := by simp [State.loseProbe]
@[simp] theorem State.claimOutcome_stationView (s : State) (k : SlotNo) (o : Outcome) :
    (s.claimOutcome k o).stationView = s.stationView := by
  unfold State.claimOutcome
  split
  · rfl
  · split
    · split <;> simp
    · simp
@[simp] theorem State.abandonLaneOf_stationView (s : State) (i : StreamNo) (l : LaneNo) :
    (s.abandonLaneOf i l).stationView = s.stationView := by
  unfold State.abandonLaneOf State.abandonLane
  split
  · split <;> rfl
  · rfl
@[simp] theorem State.leaveClaims_stationView (s : State) (i : StreamNo) :
    (s.leaveClaims i).stationView = s.stationView := by
  change ((s.abandonLaneOf i 0).abandonLaneOf i 1).stationView = s.stationView
  simp

/-! ### The stream unit -/

@[simp] theorem State.finishClosing_stationView (s : State) (i : StreamNo) :
    (s.finishClosing i).stationView = s.stationView := by unfold State.finishClosing; split <;> rfl
@[simp] theorem State.releaseSlot_stationView (s : State) (k : SlotNo) (i : StreamNo) :
    (s.releaseSlot k i).stationView = s.stationView := by simp [State.releaseSlot]
@[simp] theorem State.raiseConflict_stationView (s : State) (k : SlotNo) :
    (s.raiseConflict k).stationView = s.stationView := by
  unfold State.raiseConflict
  split
  · split <;> simp
  all_goals rfl
@[simp] theorem State.clearConflict_stationView (s : State) (k : SlotNo) :
    (s.clearConflict k).stationView = s.stationView := by unfold State.clearConflict; split <;> rfl
@[simp] theorem State.settleTransit_stationView (s : State) : s.settleTransit.stationView = s.stationView := by
  unfold State.settleTransit
  split
  · rfl
  · split <;> rfl
@[simp] theorem State.deliverTransit_stationView (s : State) : s.deliverTransit.stationView = s.stationView := by
  unfold State.deliverTransit; split <;> rfl
@[simp] theorem State.finalSent_stationView (s : State) (k : SlotNo) :
    (s.finalSent k).stationView = s.stationView := by unfold State.finalSent; split <;> simp
/-- The outcome of the station's own slot frame moves claims and streams alone. -/
@[simp] theorem State.takeOutcome_stationView (s : State) (k : SlotNo) (f : Frame) (o : Outcome) :
    (s.takeOutcome k f o).stationView = s.stationView := by
  unfold State.takeOutcome State.dataOutcome State.fillOutcome
  split
  · simp
  · split <;> simp
  · split <;> simp
  · simp
  · rfl
@[simp] theorem State.freeQueue_stationView (s : State) (i : StreamNo) :
    (s.freeQueue i).stationView = s.stationView := rfl
@[simp] theorem State.condemnTransit_stationView (s : State) (i : StreamNo) :
    (s.condemnTransit i).stationView = s.stationView := by
  unfold State.condemnTransit
  split
  · split <;> rfl
  · rfl
@[simp] theorem State.markFinal_stationView (s : State) (i : StreamNo) :
    (s.markFinal i).stationView = s.stationView := s.mapEntries_stationView _
@[simp] theorem State.closeStream_stationView (s : State) (i : StreamNo) :
    (s.closeStream i).stationView = s.stationView := by
  have hb : (s.beginClose i).stationView = s.stationView := by simp [State.beginClose]
  unfold State.closeStream
  dsimp only
  split <;> simp [hb]
@[simp] theorem State.closeFailed_stationView (s : State) (i : StreamNo) :
    (s.closeFailed i).stationView = s.stationView := by simp [State.closeFailed]
@[simp] theorem State.stopStream_stationView (s : State) (i : StreamNo) :
    (s.stopStream i).stationView = s.stationView := by unfold State.stopStream; split <;> simp
@[simp] theorem State.stopStreams_stationView (s : State) : s.stopStreams.stationView = s.stationView :=
  foldl_stationView _ State.stopStream_stationView _ s

/-! ### The receive unit -/

@[simp] theorem State.storeBlock_stationView (s : State) (e : EntryNo) (k : SlotNo) (cycle : Half) (f : SlotFrame)
    (b : BufferNo) : (s.storeBlock e k cycle f b).stationView = s.stationView := rfl
@[simp] theorem State.activateSub_stationView (s : State) (e : EntryNo) (k : SlotNo) :
    (s.activateSub e k).stationView = s.stationView := by unfold State.activateSub; split <;> rfl
@[simp] theorem State.hitFinal_stationView (s : State) (e : EntryNo) (k : SlotNo) :
    (s.hitFinal e k).stationView = s.stationView := by unfold State.hitFinal; split <;> rfl
@[simp] theorem State.countQuiet_stationView (s : State) (e : EntryNo) :
    (s.countQuiet e).stationView = s.stationView := by
  unfold State.countQuiet
  split
  · split <;> rfl
  · rfl
@[simp] theorem State.receiveCycleEnd_stationView (s : State) : s.receiveCycleEnd.stationView = s.stationView := by
  unfold State.receiveCycleEnd
  split
  · exact foldl_stationView _ State.countQuiet_stationView _ s
  · rfl
@[simp] theorem State.commit_stationView (s : State) (c : Option CommitTarget) :
    (s.commit c).stationView = s.stationView := by
  rcases s.commit_cases c with h | ⟨-, h⟩ | ⟨e, b, rest, -, -, h⟩ <;> rw [h] <;> rfl

/-- A slot frame received moves the station part by a receive drop at most (R133). -/
theorem State.receive_stationView (s : State) (k : SlotNo) (cycle : Half) (f : SlotFrame) :
    (s.receive k cycle f).stationView = s.stationView ∨
      (s.receive k cycle f).stationView = s.countDrop.stationView := by
  have hd (e : EntryNo) : (s.dropBlock e).stationView = s.countDrop.stationView := rfl
  have hs (e : EntryNo) : (s.storeOrDrop e k cycle f).stationView = s.stationView ∨
      (s.storeOrDrop e k cycle f).stationView = s.countDrop.stationView := by
    unfold State.storeOrDrop
    split
    · split
      · exact .inl rfl
      · exact .inr (hd e)
    · exact .inr (hd e)
  unfold State.receive
  split
  · exact .inl rfl
  · rename_i e _
    split
    · exact .inl rfl
    · exact .inl rfl
    · simpa [State.hitData] using hs e
    · exact .inl (by simp)

end Sys2Proof.Machine
end

section
/-! PROOF. The changes that a station part may undergo: each keeps the laws of the station, lowers no counter, and
moves the station state along the table of chapter 2 or not at all. -/

namespace Sys2Proof.Machine

open Sys2Proof.Safety

/-! ## What a step may do to the station part -/

theorem le_bump (c : Half) : c ≤ bump c := by
  unfold bump
  split
  · exact BitVec.le_refl c
  · bv_omega

theorem countersRise_refl (c : Counters) : CountersRise c c :=
  ⟨BitVec.le_refl _, BitVec.le_refl _, BitVec.le_refl _, BitVec.le_refl _, BitVec.le_refl _, BitVec.le_refl _,
    BitVec.le_refl _⟩

theorem countersRise_trans {a b c : Counters} (hab : CountersRise a b) (hbc : CountersRise b c) : CountersRise a c := by
  obtain ⟨h1, h2, h3, h4, h5, h6, h7⟩ := hab
  obtain ⟨k1, k2, k3, k4, k5, k6, k7⟩ := hbc
  exact ⟨BitVec.le_trans h1 k1, BitVec.le_trans h2 k2, BitVec.le_trans h3 k3, BitVec.le_trans h4 k4,
    BitVec.le_trans h5 k5, BitVec.le_trans h6 k6, BitVec.le_trans h7 k7⟩

theorem zero_lt_holdoverLimit : 0 < Config.holdoverLimit := by decide

/-- The station state stays, no counter falls, and the station laws are kept. -/
structure StationKeeps (v w : StationView) : Prop where
  legal    : v.Legal → w.Legal
  station  : w.station = v.station
  counters : CountersRise v.counters w.counters

/-- The station state stays or moves along the table of chapter 2, no counter falls, and the station laws are kept. -/
structure StationStep (v w : StationView) : Prop where
  legal    : v.Legal → w.Legal
  moves    : w.station ≠ v.station → Moves v.station w.station = true
  counters : CountersRise v.counters w.counters

theorem StationKeeps.refl (v : StationView) : StationKeeps v v := ⟨id, rfl, countersRise_refl _⟩

theorem StationKeeps.trans {v w x : StationView} (h : StationKeeps v w) (k : StationKeeps w x) : StationKeeps v x :=
  ⟨k.legal ∘ h.legal, k.station.trans h.station, countersRise_trans h.counters k.counters⟩

theorem StationKeeps.step {v w : StationView} (h : StationKeeps v w) : StationStep v w :=
  ⟨h.legal, fun hne => absurd h.station hne, h.counters⟩

theorem StationKeeps.then_step {v w x : StationView} (h : StationKeeps v w) (k : StationStep w x) : StationStep v x :=
  ⟨k.legal ∘ h.legal, h.station ▸ k.moves, countersRise_trans h.counters k.counters⟩

theorem StationStep.then_keeps {v w x : StationView} (h : StationStep v w) (k : StationKeeps w x) : StationStep v x :=
  ⟨k.legal ∘ h.legal, k.station ▸ h.moves, countersRise_trans h.counters k.counters⟩

/-! ### Changes that keep the station state -/

namespace StationKeeps

variable {v : StationView}

theorem counters_rise {c : Counters} (h : CountersRise v.counters c) : StationKeeps v { v with counters := c } :=
  ⟨fun L => { L with }, rfl, h⟩

theorem timeline_map {f : Timeline → Timeline} (h : ∀ t, (f t).founder = t.founder) :
    StationKeeps v { v with timeline := v.timeline.map f } := by
  refine ⟨fun L => { L with timelinePresent := ?_, founderNamed := ?_ }, rfl, countersRise_refl _⟩
  · exact (Option.isSome_map ..).trans L.timelinePresent
  · intro t ht
    obtain ⟨u, hu, rfl⟩ := Option.map_eq_some_iff.mp ht
    exact (h u).symm ▸ L.founderNamed u hu

theorem tx_none : StationKeeps v { v with tx := none } :=
  ⟨fun L => { L with sendsWhereItMay := fun _ _ => rfl }, rfl, countersRise_refl _⟩

theorem tx_some {x : Transmission} (h : v.Legal → v.station = .active ∨ v.station = .leaving) :
    StationKeeps v { v with tx := some x } :=
  ⟨fun L => { L with sendsWhereItMay := fun ha hl => ((h L).elim ha hl).elim }, rfl, countersRise_refl _⟩

theorem heard (h : v.station.onTimeline = true) : StationKeeps v { v with beaconHeard := true, holdover := 0 } :=
  ⟨fun L => { L with
      holdoverRange := zero_lt_holdoverLimit
      holdoverOff := fun _ => rfl
      heardOnlyOnTimeline := fun hoff => absurd (h.symm.trans hoff) (by decide) }, rfl, countersRise_refl _⟩

theorem unheard : StationKeeps v { v with beaconHeard := false } :=
  ⟨fun L => { L with heardOnlyOnTimeline := fun _ => rfl }, rfl, countersRise_refl _⟩

theorem position_none : StationKeeps v { v with drawnPosition := none } :=
  ⟨fun L => { L with positionOnlyActive := fun _ => rfl }, rfl, countersRise_refl _⟩

theorem position_drawn {p : Position} (h : v.station = .active) : StationKeeps v { v with drawnPosition := some p } :=
  ⟨fun L => { L with positionOnlyActive := fun hne => absurd h hne }, rfl, countersRise_refl _⟩

theorem clash (h : v.station ≠ .unconfigured ∧ v.station ≠ .ready) : StationKeeps v { v with sessionFlag := true } :=
  ⟨fun L => { L with sessionOver := fun hoff => (hoff.elim h.1 h.2).elim }, rfl, countersRise_refl _⟩

theorem holdover_rise (h : v.station.onTimeline = true) (hn : v.holdover + 1 < Config.holdoverLimit) :
    StationKeeps v { v with holdover := v.holdover + 1 } :=
  ⟨fun L => { L with
      holdoverRange := hn
      holdoverOff := fun hoff => absurd (h.symm.trans hoff) (by decide) }, rfl, countersRise_refl _⟩

theorem settle_fall (h : v.station = .settle) (hn : 1 < v.settle) : StationKeeps v { v with settle := v.settle - 1 } :=
  ⟨fun L => { L with
      settleRange := fun hs => by
        have hr : v.settle ≤ Config.settleCycles := (L.settleRange hs).2
        change 1 ≤ v.settle - 1 ∧ v.settle - 1 ≤ Config.settleCycles
        omega
      settleOff := fun hne => absurd h hne }, rfl, countersRise_refl _⟩

theorem carrier_off_listen {c : Option Time} (h : v.station ≠ .listen) : StationKeeps v { v with carrier := c } :=
  ⟨fun L => { L with timerRuns := fun hl => absurd hl h }, rfl, countersRise_refl _⟩

/-- In LISTEN the timer counts exactly while the pair is quiet (R25). -/
theorem timer_by_carrier {c : Option Time} {m : ListenTimer} (h : v.station = .listen) (hm : m ≠ .stopped)
    (hc : m.isCounting = true ↔ c = none) : StationKeeps v { v with carrier := c, listenTimer := m } :=
  ⟨fun L => { L with
      timerOff := fun hne => absurd h hne
      timerRuns := fun _ => ⟨hm, hc⟩ }, rfl, countersRise_refl _⟩

theorem timer_tick : StationKeeps v { v with listenTimer := v.listenTimer.tick } := by
  refine ⟨fun L => { L with timerOff := fun hne => ?_, timerRuns := fun hl => ?_ }, rfl, countersRise_refl _⟩
  · have ht : v.listenTimer = .stopped := L.timerOff hne
    change v.listenTimer.tick = .stopped
    rw [ht]; rfl
  · have ht : v.listenTimer ≠ .stopped ∧ (v.listenTimer.isCounting = true ↔ v.carrier = none) := L.timerRuns hl
    change v.listenTimer.tick ≠ .stopped ∧ (v.listenTimer.tick.isCounting = true ↔ v.carrier = none)
    cases hv : v.listenTimer <;> simp_all [ListenTimer.tick, ListenTimer.isCounting]

end StationKeeps

/-! ### Changes of the station state (R18) -/

/-- The station part on arrival in READY (R39). -/
def StationView.arrived (v : StationView) : StationView :=
  { v with station := .ready, timeline := none, holdover := 0, settle := 0, listenTimer := .stopped
           drawnPosition := none, beaconHeard := false, tx := none, sessionFlag := false }

/-- The station part of a station that joins the timeline of a beacon and settles (R28, R33). -/
def StationView.joined (v : StationView) (t : Timeline) : StationView :=
  { v with station := .settle, timeline := some t, holdover := 0, settle := Config.settleCycles
           listenTimer := .stopped, drawnPosition := none, beaconHeard := true }

/-- The station part of a station that founds a timeline (R27). -/
def StationView.founded (v : StationView) (t : Timeline) : StationView :=
  { v with station := .active, timeline := some t, holdover := 0, settle := 0, listenTimer := .stopped }

/-- The station part after a loss of synchronization (R31). -/
def StationView.unsynchronized (v : StationView) (m : ListenTimer) : StationView :=
  { v with station := .listen, timeline := none, holdover := 0, settle := 0, listenTimer := m
           drawnPosition := none, beaconHeard := false, tx := none }

/-- The station part after a device reset (R20). -/
def StationView.deviceReset (v : StationView) : StationView := { State.reset.stationView with carrier := v.carrier }

namespace StationStep

variable {v : StationView}

theorem arrived (h : v.station.receiverOn = true) : StationStep v v.arrived where
  legal L :=
    have hcfg : v.station ≠ .unconfigured := fun hu => by simp [hu, StationState.receiverOn] at h
    { timelinePresent := rfl
      founderNamed := nofun
      holdoverRange := zero_lt_holdoverLimit
      holdoverOff := fun _ => rfl
      settleRange := nofun
      settleOff := fun _ => rfl
      timerOff := fun _ => rfl
      timerRuns := nofun
      positionOnlyActive := fun _ => rfl
      heardOnlyOnTimeline := fun _ => rfl
      sendsWhereItMay := fun _ _ => rfl
      configClear := nofun
      configSet := fun _ => L.configSet hcfg
      sessionOver := fun _ => rfl }
  moves _ := by
    change Moves v.station .ready = true
    revert h; cases v.station <;> decide
  counters := countersRise_refl _

theorem joined {t : Timeline} (h : v.station = .listen ∨ v.station = .settle ∨ v.station = .active)
    (ht : t.founder ≠ 0) (hx : v.Legal → v.tx = none) : StationStep v (v.joined t) where
  legal L :=
    have hcfg : v.station ≠ .unconfigured := fun hu => by simp [hu] at h
    { timelinePresent := rfl
      founderNamed := fun u hu => by cases hu; exact ht
      holdoverRange := zero_lt_holdoverLimit
      holdoverOff := fun _ => rfl
      settleRange := fun _ => by change 1 ≤ Config.settleCycles ∧ Config.settleCycles ≤ Config.settleCycles; decide
      settleOff := fun hne => absurd rfl hne
      timerOff := fun _ => rfl
      timerRuns := nofun
      positionOnlyActive := fun _ => rfl
      heardOnlyOnTimeline := nofun
      sendsWhereItMay := fun _ _ => hx L
      configClear := nofun
      configSet := fun _ => L.configSet hcfg
      sessionOver := nofun }
  moves hne := by
    change StationState.settle ≠ v.station at hne
    change Moves v.station .settle = true
    rcases h with h | h | h
    · rw [h]; rfl
    · exact absurd h.symm hne
    · rw [h]; rfl
  counters := countersRise_refl _

theorem founded {t : Timeline} (h : v.station = .listen) (ht : v.Legal → t.founder ≠ 0) :
    StationStep v (v.founded t) where
  legal L :=
    have hcfg : v.station ≠ .unconfigured := fun hu => by simp [hu] at h
    { L with
      timelinePresent := rfl
      founderNamed := fun u hu => by cases hu; exact ht L
      holdoverRange := zero_lt_holdoverLimit
      holdoverOff := fun _ => rfl
      settleRange := nofun
      settleOff := fun _ => rfl
      timerOff := fun _ => rfl
      timerRuns := nofun
      positionOnlyActive := fun hne => absurd rfl hne
      heardOnlyOnTimeline := nofun
      sendsWhereItMay := fun hne => absurd rfl hne
      configClear := nofun
      configSet := fun _ => L.configSet hcfg
      sessionOver := nofun }
  moves _ := by change Moves v.station .active = true; rw [h]; rfl
  counters := countersRise_refl _

theorem unsynchronized {m : ListenTimer} (h : v.station = .settle ∨ v.station = .active) (hm : m ≠ .stopped)
    (hc : m.isCounting = true ↔ v.carrier = none) : StationStep v (v.unsynchronized m) where
  legal L :=
    have hcfg : v.station ≠ .unconfigured := fun hu => by simp [hu] at h
    { timelinePresent := rfl
      founderNamed := nofun
      holdoverRange := zero_lt_holdoverLimit
      holdoverOff := fun _ => rfl
      settleRange := nofun
      settleOff := fun _ => rfl
      timerOff := fun hne => absurd rfl hne
      timerRuns := fun _ => ⟨hm, hc⟩
      positionOnlyActive := fun _ => rfl
      heardOnlyOnTimeline := fun _ => rfl
      sendsWhereItMay := fun _ _ => rfl
      configClear := nofun
      configSet := fun _ => L.configSet hcfg
      sessionOver := nofun }
  moves _ := by
    change Moves v.station .listen = true
    rcases h with h | h <;> rw [h] <;> rfl
  counters := countersRise_refl _

/-- The settle count runs out (R29). -/
theorem settled (h : v.station = .settle) : StationStep v { v with station := .active, settle := 0 } where
  legal L :=
    have hon : v.station.onTimeline = true := by rw [h]; rfl
    { L with
      timelinePresent := L.timelinePresent.trans hon
      holdoverOff := nofun
      settleRange := nofun
      settleOff := fun _ => rfl
      timerOff := fun _ => L.timerOff fun hl => nomatch h.symm.trans hl
      timerRuns := nofun
      positionOnlyActive := fun hne => absurd rfl hne
      heardOnlyOnTimeline := nofun
      sendsWhereItMay := fun hne => absurd rfl hne
      configClear := nofun
      configSet := fun _ => L.configSet fun hu => nomatch h.symm.trans hu
      sessionOver := nofun }
  moves _ := by change Moves v.station .active = true; rw [h]; rfl
  counters := countersRise_refl _

/-- STOP in ACTIVE (R35). -/
theorem left (h : v.station = .active) : StationStep v { v with station := .leaving, drawnPosition := none } where
  legal L :=
    have hon : v.station.onTimeline = true := by rw [h]; rfl
    { L with
      timelinePresent := L.timelinePresent.trans hon
      holdoverOff := nofun
      settleRange := nofun
      settleOff := fun _ => L.settleOff fun hs => nomatch h.symm.trans hs
      timerOff := fun _ => L.timerOff fun hl => nomatch h.symm.trans hl
      timerRuns := nofun
      positionOnlyActive := fun _ => rfl
      heardOnlyOnTimeline := nofun
      sendsWhereItMay := fun _ hne => absurd rfl hne
      configClear := nofun
      configSet := fun _ => L.configSet fun hu => nomatch h.symm.trans hu
      sessionOver := nofun }
  moves _ := by change Moves v.station .leaving = true; rw [h]; rfl
  counters := countersRise_refl _

/-- START (R24). -/
theorem started {m : ListenTimer} (h : v.station = .ready) (hm : m ≠ .stopped)
    (hc : m.isCounting = true ↔ v.carrier = none) : StationStep v { v with station := .listen, listenTimer := m } where
  legal L :=
    have hon : v.station.onTimeline = false := by rw [h]; rfl
    { L with
      timelinePresent := L.timelinePresent.trans hon
      holdoverOff := fun _ => L.holdoverOff hon
      settleRange := nofun
      settleOff := fun _ => L.settleOff fun hs => nomatch h.symm.trans hs
      timerOff := fun hne => absurd rfl hne
      timerRuns := fun _ => ⟨hm, hc⟩
      positionOnlyActive := fun _ => L.positionOnlyActive fun ha => nomatch h.symm.trans ha
      heardOnlyOnTimeline := fun _ => L.heardOnlyOnTimeline hon
      sendsWhereItMay := fun _ _ =>
        L.sendsWhereItMay (fun ha => nomatch h.symm.trans ha) fun hl => nomatch h.symm.trans hl
      configClear := nofun
      configSet := fun _ => L.configSet fun hu => nomatch h.symm.trans hu
      sessionOver := nofun }
  moves _ := by change Moves v.station .listen = true; rw [h]; rfl
  counters := countersRise_refl _

/-- CONFIGURE (R22). -/
theorem configured {c : Configuration} (h : v.station = .unconfigured)
    (hc : c.address ≠ 0 ∧ c.seed ≠ 0 ∧ (c.founderEligible = true → c.beaconEligible = true)) :
    StationStep v { v with station := .ready, config := c } where
  legal L :=
    have hon : v.station.onTimeline = false := by rw [h]; rfl
    { L with
      timelinePresent := L.timelinePresent.trans hon
      holdoverOff := fun _ => L.holdoverOff hon
      settleRange := nofun
      settleOff := fun _ => L.settleOff fun hs => nomatch h.symm.trans hs
      timerOff := fun _ => L.timerOff fun hl => nomatch h.symm.trans hl
      timerRuns := nofun
      positionOnlyActive := fun _ => L.positionOnlyActive fun ha => nomatch h.symm.trans ha
      heardOnlyOnTimeline := fun _ => L.heardOnlyOnTimeline hon
      sendsWhereItMay := fun _ _ =>
        L.sendsWhereItMay (fun ha => nomatch h.symm.trans ha) fun hl => nomatch h.symm.trans hl
      configClear := nofun
      configSet := fun _ => hc
      sessionOver := fun _ => L.sessionOver (.inl h) }
  moves _ := by change Moves v.station .ready = true; rw [h]; rfl
  counters := countersRise_refl _

end StationStep

/-- A device reset leaves a legal station part: everything at its reset value, and the pair as it was (R20). -/
theorem StationView.deviceReset_legal (v : StationView) : v.deviceReset.Legal where
  timelinePresent := rfl
  founderNamed := nofun
  holdoverRange := zero_lt_holdoverLimit
  holdoverOff := fun _ => rfl
  settleRange := nofun
  settleOff := fun _ => rfl
  timerOff := fun _ => rfl
  timerRuns := nofun
  positionOnlyActive := fun _ => rfl
  heardOnlyOnTimeline := fun _ => rfl
  sendsWhereItMay := fun _ _ => rfl
  configClear := fun _ => rfl
  configSet := fun hne => absurd rfl hne
  sessionOver := fun _ => rfl

end Sys2Proof.Machine
end

section
/-! PROOF. The operations of the model that change the station part, each by the changes it makes. -/

namespace Sys2Proof.Machine

open Sys2Proof.Safety

/-! ## What each operation does to the station part -/

@[simp] theorem State.nextIs_stationView (s : State) (b : Boundary) :
    (s.nextIs b).stationView = { s.stationView with
      timeline := s.stationView.timeline.map fun t => { t with nextBoundary := b } } := rfl
@[simp] theorem State.closeDivision_stationView (s : State) :
    s.closeDivision.stationView = { s.stationView with tx := none } := rfl
@[simp] theorem State.handOver_stationView (s : State) (f : Frame) :
    (s.handOver f).stationView = { s.stationView with tx := some { frame := f, stage := .handedOver } } := rfl
@[simp] theorem State.timelineDrop_stationView (s : State) :
    s.timelineDrop.stationView = { s.stationView with tx := none } := by
  have h : ((s.settleTransit.emptyClaims.clearMap.mapStreams fun _ r => r.drop).mapSubs
      Subscription.rewait).stationView = s.stationView := by simp
  exact congrArg (fun v : StationView => { v with tx := none }) h
@[simp] theorem State.enter_stationView (s : State) (target : StationState) (cause : Cause) :
    (s.enter target cause).stationView = { s.stationView with station := target } := rfl
@[simp] theorem State.arriveReady_stationView (s : State) (cause : Cause) :
    (s.arriveReady cause).stationView = s.stationView.arrived := by
  simp [State.arriveReady, State.arrival, State.stationView, StationView.arrived, State.enter, State.clearMap]

@[simp] theorem State.leaveTimeline_stationView (s : State) :
    s.leaveTimeline.stationView = { s.stationView with
      timeline := none, holdover := 0, settle := 0, drawnPosition := none, beaconHeard := false, tx := none } := rfl

theorem State.nextIs_keeps (s : State) (b : Boundary) : StationKeeps s.stationView (s.nextIs b).stationView :=
  .timeline_map fun _ => rfl

/-! ### Counters -/

theorem State.countCollided_keeps (s : State) : StationKeeps s.stationView s.countCollided.stationView :=
  .counters_rise (by simp [CountersRise, le_bump, State.stationView])
theorem State.countDamaged_keeps (s : State) : StationKeeps s.stationView s.countDamaged.stationView :=
  .counters_rise (by simp [CountersRise, le_bump, State.stationView])
theorem State.countCleanBeacon_keeps (s : State) : StationKeeps s.stationView s.countCleanBeacon.stationView :=
  .counters_rise (by simp [CountersRise, le_bump, State.stationView])
theorem State.countClash_keeps (s : State) : StationKeeps s.stationView s.countClash.stationView :=
  .counters_rise (by simp [CountersRise, le_bump, State.stationView])
theorem State.countSlip_keeps (s : State) : StationKeeps s.stationView s.countSlip.stationView :=
  .counters_rise (by simp [CountersRise, le_bump, State.stationView])
theorem State.countForeign_keeps (s : State) : StationKeeps s.stationView s.countForeign.stationView :=
  .counters_rise (by simp [CountersRise, le_bump, State.stationView])
theorem State.countDrop_keeps (s : State) : StationKeeps s.stationView s.countDrop.stationView :=
  .counters_rise (by simp [CountersRise, le_bump, State.stationView])

theorem State.recordOutcome_keeps (s : State) (k : SlotNo) (o : Outcome) :
    StationKeeps s.stationView (s.recordOutcome k o).stationView := by
  cases o
  · exact .refl _
  · exact (s.markActive k).countCollided_keeps

theorem State.recordClass_keeps (s : State) (k : SlotNo) (c : ObsClass SlotFrame) :
    StationKeeps s.stationView (s.recordClass k c).stationView := by
  cases c
  · exact .refl _
  · exact .refl _
  · exact (s.markActive k).countCollided_keeps
  · exact (s.markActive k).countDamaged_keeps

theorem State.receiveClass_keeps (s : State) (k : SlotNo) (cycle : Half) (c : ObsClass SlotFrame) :
    StationKeeps s.stationView (s.receiveClass k cycle c).stationView := by
  cases c with
  | clean f =>
    rcases s.receive_stationView k cycle f with h | h
    · exact h ▸ .refl _
    · exact h ▸ s.countDrop_keeps
  | silent => exact .refl _
  | collided => exact .refl _
  | damaged => exact .refl _

/-! ### The address clash -/

theorem StationState.onTimeline_session {x : StationState} (h : x.onTimeline = true) :
    x ≠ .unconfigured ∧ x ≠ .ready := by
  cases x <;> simp_all [StationState.onTimeline]

theorem State.checkAddress_keeps (s : State) (a : Address) (h : s.station.onTimeline = true) :
    StationKeeps s.stationView (s.checkAddress a).stationView := by
  unfold State.checkAddress State.raiseClash
  split
  · split
    · exact .refl _
    · exact .clash (StationState.onTimeline_session h)
  · exact .refl _

theorem State.observeSlot_keeps (s : State) (k : SlotNo) (c : ObsClass SlotFrame) (h : s.station.onTimeline = true) :
    StationKeeps s.stationView (s.observeSlot k c).stationView := by
  unfold State.observeSlot
  split
  · exact .refl _
  · split
    · exact s.checkAddress_keeps _ h
    · exact .refl _
    · exact .refl _
    · exact .refl _

/-! ### The beacon unit -/

theorem State.beaconWasHeard_keeps (s : State) (h : s.station.onTimeline = true) :
    StationKeeps s.stationView s.beaconWasHeard.stationView :=
  s.countCleanBeacon_keeps.trans (.heard h)

theorem State.beaconOutcome_keeps (s : State) (o : Outcome) (h : s.station.onTimeline = true) :
    StationKeeps s.stationView (s.beaconOutcome o).stationView := by
  cases o
  · exact s.beaconWasHeard_keeps h
  · exact s.countClash_keeps

theorem State.compareCycle_keeps (s : State) (b : BeaconFrame) :
    StationKeeps s.stationView (s.compareCycle b).stationView := by
  unfold State.compareCycle
  split
  · exact .refl _
  · exact s.countSlip_keeps.trans (.timeline_map fun _ => rfl)

theorem State.takeOwnBeacon_keeps (s : State) (b : BeaconFrame) (firstBit : Time) (h : s.station.onTimeline = true) :
    StationKeeps s.stationView (s.takeOwnBeacon b firstBit).stationView := by
  have hk : StationKeeps s.stationView
      (((s.beaconWasHeard.compareCycle b).trim b firstBit).mergeSummary b.occupancy).stationView := by
    rw [State.mergeSummary_stationView]
    exact ((s.beaconWasHeard_keeps h).trans (s.beaconWasHeard.compareCycle_keeps b)).trans (.timeline_map fun _ => rfl)
  exact hk.trans (State.checkAddress_keeps _ _ ((congrArg StationState.onTimeline hk.station).trans h))

theorem State.takePosition_keeps (s : State) (c : ObsClass HeardBeacon) (h : s.station.onTimeline = true) :
    StationKeeps s.stationView (s.takePosition c).stationView := by
  unfold State.takePosition
  split
  · exact .refl _
  · exact s.takeOwnBeacon_keeps _ _ h
  · exact .refl _
  · exact s.countClash_keeps
  · exact .refl _

theorem State.drawPosition_keeps (s : State) : StationKeeps s.stationView s.drawPosition.stationView := by
  unfold State.drawPosition
  split
  · rename_i h
    exact StationKeeps.unheard.trans (.position_drawn h.1)
  · exact StationKeeps.unheard.trans .position_none

/-- A beacon is handed over at a drawn position, and so in ACTIVE (R44). -/
theorem State.openPosition_keeps (s : State) (t : Timeline) (p : Position) :
    StationKeeps s.stationView (s.openPosition t p).stationView := by
  unfold State.openPosition
  split
  · rename_i hp
    split
    · exact .position_none
    · refine StationKeeps.trans (.tx_some fun L => .inl ?_) .position_none
      by_contra hne
      exact nomatch hp.symm.trans (L.positionOnlyActive hne)
  · exact .refl _

theorem State.sendOwned_stationView (s : State) (k : SlotNo) (i : StreamNo) (final : Bool) :
    ∃ x, (s.sendOwned k i final).stationView = { s.stationView with tx := some x } := by
  unfold State.sendOwned
  split
  · exact ⟨_, rfl⟩
  · split <;> exact ⟨_, rfl⟩

theorem State.beginSlot_keeps (s : State) (k : SlotNo) : StationKeeps s.stationView (s.beginSlot k).stationView := by
  unfold State.beginSlot
  split
  · split
    · rename_i h
      exact .tx_some fun _ => .inl h
    · exact .refl _
  · split
    · rename_i i _ final _ h
      obtain ⟨x, hx⟩ := s.sendOwned_stationView k i final
      exact hx ▸ .tx_some fun _ => h
    · exact .refl _
  all_goals exact .refl _

/-- A transmission goes on where one is under way, and so in ACTIVE or LEAVING (R17). -/
theorem StationKeeps.tx_stage {v : StationView} {x y : Transmission} (h : v.tx = some x) :
    StationKeeps v { v with tx := some y } :=
  .tx_some fun L => by
    by_contra hne
    rw [not_or] at hne
    exact nomatch h.symm.trans (L.sendsWhereItMay hne.1 hne.2)

/-! ### The listen timer -/

/-- A timer started counts where the pair is quiet, and is held where it carries (R25). -/
theorem State.startTimer_stationView (s : State) :
    ∃ m : ListenTimer, m ≠ .stopped ∧ (m.isCounting = true ↔ s.carrier = none) ∧
      s.startTimer.stationView = { s.stationView with listenTimer := m } := by
  have hm (wait : Nat) : (if s.carrier.isSome then .held wait else .counting wait) ≠ ListenTimer.stopped ∧
      ((if s.carrier.isSome then .held wait else ListenTimer.counting wait).isCounting = true ↔ s.carrier = none) := by
    cases s.carrier <;> simp [ListenTimer.isCounting]
  exact ⟨_, (hm _).1, (hm _).2, rfl⟩

/-! ### Changes of the station state -/

theorem State.checkLeft_step (s : State) : StationStep s.stationView s.checkLeft.stationView := by
  unfold State.checkLeft
  split
  · rename_i h
    rw [State.arriveReady_stationView]
    exact .arrived (by change s.station.receiverOn = true; rw [h.1]; rfl)
  · exact (StationKeeps.refl _).step

theorem State.joinTimeline_step (s : State) (b : BeaconFrame) (firstBit : Time) (cause : Cause)
    (h : s.station = .listen ∨ s.station = .settle ∨ s.station = .active) (hb : b.founder ≠ 0)
    (hx : s.stationView.Legal → s.tx = none) :
    StationStep s.stationView ((s.joinTimeline b firstBit).enter .settle cause).stationView :=
  .joined (t := { founder := b.founder, cycle := b.cycle, startedAt := b.placedStart firstBit,
                  nextBoundary := b.nextBoundary }) h hb hx

/-- A beacon joined is counted, its summary merged and its sender checked. -/
theorem State.takeJoined_keeps (s : State) (b : BeaconFrame) (h : s.station.onTimeline = true) :
    StationKeeps s.stationView ((s.countCleanBeacon.mergeSummary b.occupancy).checkAddress b.sender).stationView := by
  have hm : StationKeeps s.stationView (s.countCleanBeacon.mergeSummary b.occupancy).stationView := by
    rw [State.mergeSummary_stationView]
    exact s.countCleanBeacon_keeps
  exact hm.trans (State.checkAddress_keeps _ _ ((congrArg StationState.onTimeline hm.station).trans h))

theorem State.adopt_step (s : State) (b : BeaconFrame) (firstBit lastBit : Time) (h : s.station = .listen)
    (hb : b.founder ≠ 0) : StationStep s.stationView (s.adopt b firstBit lastBit).stationView := by
  have hx (L : s.stationView.Legal) : s.tx = none :=
    L.sendsWhereItMay (fun ha => nomatch h.symm.trans ha) fun hl => nomatch h.symm.trans hl
  have hj := (s.restartReceiver lastBit).joinTimeline_step b firstBit .adopt (.inl h) hb hx
  have hon : (((s.restartReceiver lastBit).joinTimeline b firstBit).enter .settle .adopt).station.onTimeline = true :=
    rfl
  exact hj.then_keeps (State.takeJoined_keeps _ b hon)

/-- A merge discards a frame that waits and joins the other timeline (R33, R55). -/
theorem State.mergeOnto_step (s : State) (b : BeaconFrame) (firstBit : Time)
    (h : s.station = .settle ∨ s.station = .active) (hb : b.founder ≠ 0) :
    StationStep s.stationView (s.mergeOnto b firstBit).stationView := by
  have hd : StationKeeps s.stationView s.timelineDrop.stationView := s.timelineDrop_stationView ▸ .tx_none
  have htx : s.timelineDrop.tx = none := congrArg StationView.tx s.timelineDrop_stationView
  have hstation : s.timelineDrop.station = s.station := hd.station
  unfold State.mergeOnto
  generalize s.timelineDrop = u at hd htx hstation
  have hj := u.joinTimeline_step b firstBit .merge (.inr (hstation ▸ h)) hb fun _ => htx
  have hp := State.postAll_stationView ((u.joinTimeline b firstBit).enter .settle .merge)
    (s.closingStreams.map .streamClosed)
  exact (hd.then_step (hp ▸ hj)).then_keeps
    (State.takeJoined_keeps _ b (congrArg (·.station.onTimeline) hp))

theorem State.mergeLeaving_step (s : State) (b : BeaconFrame) (h : s.station = .leaving) :
    StationStep s.stationView (s.mergeLeaving b).stationView := by
  have hv : (s.mergeLeaving b).stationView = s.stationView.arrived := by
    unfold State.mergeLeaving
    split <;> simp [StationView.arrived]
  exact hv ▸ .arrived (by change s.station.receiverOn = true; rw [h]; rfl)

theorem State.loseSync_step (s : State) (h : s.station = .settle ∨ s.station = .active) :
    StationStep s.stationView s.loseSync.stationView := by
  obtain ⟨m, hm, hc, hv⟩ := s.abandonFrame.timelineDrop.leaveTimeline.startTimer_stationView
  have hl : s.abandonFrame.timelineDrop.leaveTimeline.stationView =
      { s.stationView.unsynchronized m with station := s.station, listenTimer := s.listenTimer } := by
    rw [State.leaveTimeline_stationView, State.timelineDrop_stationView, State.abandonFrame_stationView]
    rfl
  have hcarrier : s.abandonFrame.timelineDrop.leaveTimeline.carrier = s.carrier := congrArg StationView.carrier hl
  have hw : s.loseSync.stationView = s.stationView.unsynchronized m := by
    unfold State.loseSync
    rw [State.postAll_stationView, State.enter_stationView, hv, hl]
    rfl
  exact hw ▸ .unsynchronized h hm (hc.trans (by rw [hcarrier]; rfl))

theorem State.loseSyncLeaving_step (s : State) (h : s.station = .leaving) :
    StationStep s.stationView s.loseSyncLeaving.stationView := by
  have hv : s.loseSyncLeaving.stationView = s.stationView.arrived := by
    simp [State.loseSyncLeaving, StationView.arrived]
  exact hv ▸ .arrived (by change s.station.receiverOn = true; rw [h]; rfl)

theorem State.countSettle_step (s : State) : StationStep s.stationView s.countSettle.stationView := by
  unfold State.countSettle
  split
  · rename_i h
    split
    · rename_i hn
      exact (StationKeeps.settle_fall h hn).step
    · exact .settled h
  · exact (StationKeeps.refl _).step

theorem StationState.onTimeline_cases {x : StationState} (h : x.onTimeline = true) :
    x = .settle ∨ x = .active ∨ x = .leaving := by
  cases x <;> simp_all [StationState.onTimeline]

theorem State.countHoldover_step (s : State) (h : s.station.onTimeline = true) :
    StationStep s.stationView s.countHoldover.stationView := by
  unfold State.countHoldover
  split
  · exact s.countSettle_step
  · split
    · rename_i hn
      exact (StationKeeps.holdover_rise h hn).then_step (State.countSettle_step { s with holdover := s.holdover + 1 })
    · rcases StationState.onTimeline_cases h with hs | hs | hs
      · rw [if_neg (by simp [hs])]; exact s.loseSync_step (.inl hs)
      · rw [if_neg (by simp [hs])]; exact s.loseSync_step (.inr hs)
      · rw [if_pos hs]; exact s.loseSyncLeaving_step hs

theorem State.endCycle_step (s : State) (h : s.station.onTimeline = true) :
    StationStep s.stationView s.endCycle.stationView := by
  unfold State.endCycle
  split
  · have hr := s.receiveCycleEnd_stationView
    exact hr ▸ s.receiveCycleEnd.countHoldover_step ((congrArg (·.station.onTimeline) hr).trans h)
  · rw [State.receiveCycleEnd_stationView]
    exact s.countHoldover_step h

/-- A station that founds is its own founder, which its configuration makes no 0 (R19, R27). -/
theorem State.found_step (s : State) (time : Time) (h : s.station = .listen) :
    StationStep s.stationView (s.found time).stationView := by
  refine StationStep.then_keeps ?_ (State.drawPosition_keeps _)
  rw [State.enter_stationView, State.fillMap_stationView]
  exact .founded (t := s.foundedTimeline time) h fun L => (L.configSet fun hu => nomatch h.symm.trans hu).1

/-! ### STOP (R34, R35) -/

theorem State.stopEarly_step (s : State) (h : s.station = .listen ∨ s.station = .settle) :
    StationStep s.stationView s.stopEarly.stationView := by
  have hv : s.stopEarly.stationView = s.stationView.arrived := by simp [State.stopEarly]
  rw [hv]
  refine .arrived ?_
  change s.station.receiverOn = true
  rcases h with h | h <;> rw [h] <;> rfl

theorem State.stopActive_step (s : State) (h : s.station = .active) :
    StationStep s.stationView s.stopActive.stationView := by
  have hv : ({ (s.enter .leaving .stop).stopStreams with drawnPosition := none } : State).stationView =
      { s.stationView with station := .leaving, drawnPosition := none } :=
    congrArg (fun v : StationView => { v with drawnPosition := none }) (State.stopStreams_stationView _)
  unfold State.stopActive
  dsimp only
  generalize ({ (s.enter .leaving .stop).stopStreams with drawnPosition := none } : State) = u at hv
  split
  · exact hv ▸ .left h
  · unfold State.checkLeft
    split
    · have ha : (u.arriveReady .left).stationView = s.stationView.arrived := by
        rw [State.arriveReady_stationView, hv]; rfl
      exact ha ▸ .arrived (by change s.station.receiverOn = true; rw [h]; rfl)
    · exact hv ▸ .left h

end Sys2Proof.Machine
end

section
/-! PROOF. What cycle events, requests and frame reports do to the station part. -/

namespace Sys2Proof.Machine

open Sys2Proof.Safety

/-! ## What each command does to the station part -/

theorem State.unlessHeld_step (s : State) (f : State → State)
    (h : s.resetHeld = false → StationStep s.stationView (f s).stationView) :
    StationStep s.stationView (s.unlessHeld f).stationView := by
  rcases s.unlessHeld_cases f with ⟨-, he⟩ | ⟨hh, he⟩ <;> rw [he]
  · exact (StationKeeps.refl _).step
  · exact h hh

theorem State.atEvent_step (s : State) (b : Boundary) (f : Timeline → State → State)
    (h : ∀ t, s.station.onTimeline = true → s.timeline = some t → StationStep s.stationView (f t s).stationView) :
    StationStep s.stationView (s.atEvent b f).stationView := by
  rcases s.atEvent_cases b f with ⟨t, -, hon, ht, -, he⟩ | he <;> rw [he]
  · exact h t hon ht
  · exact (StationKeeps.refl _).step

/-! ### Cycle events -/

/-- Cycle start keeps the founder. -/
theorem State.startCycle_keeps (s : State) (t : Timeline) (ht : s.timeline = some t) :
    StationKeeps s.stationView ({ s with timeline := some t.nextCycle }.rotateActivity).drawPosition.stationView := by
  refine StationKeeps.trans ?_ (State.drawPosition_keeps _)
  have hm : some t.nextCycle = s.stationView.timeline.map Timeline.nextCycle := by
    change _ = s.timeline.map _
    rw [ht]; rfl
  rw [State.rotateActivity_stationView]
  change StationKeeps s.stationView { s.stationView with timeline := some t.nextCycle }
  rw [hm]
  exact .timeline_map fun _ => rfl

theorem State.closePosition_step (s : State) (t : Timeline) (p : Position) (h : s.station.onTimeline = true) :
    StationStep s.stationView (s.closePosition t p).stationView := by
  have hc : StationKeeps s.stationView s.closeDivision.stationView := .tx_none
  unfold State.closePosition
  split
  · have ho (o : Outcome) := hc.trans (s.closeDivision.beaconOutcome_keeps o h)
    exact ((ho _).trans (State.nextIs_keeps _ _)).then_step (State.checkLeft_step _)
  · exact ((hc.trans (State.takePosition_keeps _ _ h)).trans (State.nextIs_keeps _ _)).step

theorem State.endOwnSlot_step (s : State) (t : Timeline) (k : SlotNo) (x : Transmission) :
    StationStep s.stationView (s.endOwnSlot t k x).stationView := by
  have hc : StationKeeps s.stationView s.closeDivision.stationView := .tx_none
  have hk (o : Outcome) : StationKeeps s.stationView
      (((s.closeDivision.recordOutcome k o).takeOutcome k x.frame o).nextIs (Boundary.afterSlot k)).stationView := by
    refine StationKeeps.trans ?_ (State.nextIs_keeps _ _)
    rw [State.takeOutcome_stationView]
    exact hc.trans (State.recordOutcome_keeps _ _ _)
  unfold State.endOwnSlot
  dsimp only
  split
  · exact (hk _).then_step (State.checkLeft_step _)
  · exact (hk _).step

theorem State.endHeardSlot_keeps (s : State) (t : Timeline) (k : SlotNo) (h : s.station.onTimeline = true) :
    StationKeeps s.stationView (s.endHeardSlot t k).stationView := by
  have hc : StationKeeps s.stationView s.closeDivision.stationView := .tx_none
  have hr := hc.trans (s.closeDivision.recordClass_keeps k (s.slotClass t k))
  have ho := hr.trans
    (State.observeSlot_keeps _ k (s.slotClass t k) ((congrArg StationState.onTimeline hr.station).trans h))
  exact (ho.trans (State.receiveClass_keeps _ _ _ _)).trans (State.nextIs_keeps _ _)

/-! ### Requests -/

@[simp] theorem State.accept_state (s : State) : s.accept.2 = s := rfl

/-- CONFIGURE stores a configuration with an address, a seed, and no founder that is not beacon-eligible (R22). -/
theorem configurationOf_legal {address : Byte} {seed : Half} {f b : Bool} {c : Configuration}
    (h : configurationOf address seed f b = some c) :
    c.address ≠ 0 ∧ c.seed ≠ 0 ∧ (c.founderEligible = true → c.beaconEligible = true) := by
  unfold configurationOf addressArg at h
  split at h
  · cases h
  · rename_i a ha
    split at ha
    · rename_i hr
      cases ha
      split at h
      · cases h
      · rename_i hn
        cases h
        rw [not_or, not_and] at hn
        refine ⟨fun h0 => ?_, hn.1, fun hf => by simpa using hn.2 hf⟩
        change address.setWidth 5 = 0 at h0
        bv_omega
    · cases ha

theorem State.configure_step (address : Byte) (seed : Half) (f b : Bool) (s : State) :
    StationStep s.stationView (State.configure address seed f b s).2.stationView := by
  unfold State.configure
  split
  · rename_i hs
    split
    · exact (StationKeeps.refl _).step
    · rename_i c hc
      exact .configured hs (configurationOf_legal hc)
  · exact (StationKeeps.refl _).step

theorem State.startRequest_step (s : State) : StationStep s.stationView s.startRequest.2.stationView := by
  unfold State.startRequest
  split
  · rename_i hs
    obtain ⟨m, hm, hc, hv⟩ := s.switchOnReceiver.startTimer_stationView
    have hw : (s.switchOnReceiver.startTimer.enter .listen .start).stationView =
        { s.stationView with station := .listen, listenTimer := m } := by
      rw [State.enter_stationView, hv, State.switchOnReceiver_stationView]
    have hstep : StationStep s.stationView (s.switchOnReceiver.startTimer.enter .listen .start).stationView := by
      rw [hw]
      exact .started hs hm (by rw [hc, State.switchOnReceiver_carrier]; rfl)
    exact hstep
  · exact (StationKeeps.refl _).step

theorem State.stopRequest_step (s : State) : StationStep s.stationView s.stopRequest.2.stationView := by
  unfold State.stopRequest
  split
  · exact (StationKeeps.refl _).step
  · exact (StationKeeps.refl _).step
  · rw [State.accept_state]; exact s.stopEarly_step (.inl ‹_›)
  · rw [State.accept_state]; exact s.stopEarly_step (.inr ‹_›)
  · rw [State.accept_state]; exact s.stopActive_step ‹_›
  · exact (StationKeeps.refl _).step

theorem State.openTx_stationView (stream tag wanted : Byte) (s : State) :
    (State.openTx stream tag wanted s).2.stationView = s.stationView := by
  unfold State.openTx; repeat' split
  all_goals rfl

theorem State.closeTx_stationView (stream : Byte) (s : State) :
    (State.closeTx stream s).2.stationView = s.stationView := by
  unfold State.closeTx
  split
  · rfl
  · split
    · rfl
    · rfl
    · rw [State.accept_state, State.closeStream_stationView]
    · rw [State.accept_state, State.closeStream_stationView]
    · rw [State.accept_state, State.closeFailed_stationView]

theorem State.push_stationView (stream : Byte) (payload : Payload) (s : State) :
    (State.push stream payload s).2.stationView = s.stationView := by
  unfold State.push; repeat' split
  all_goals rfl

theorem State.subscribe_stationView (entry source tag : Byte) (s : State) :
    (State.subscribe entry source tag s).2.stationView = s.stationView := by
  unfold State.subscribe; repeat' split
  all_goals rfl

theorem State.unsubscribe_stationView (entry : Byte) (s : State) :
    (State.unsubscribe entry s).2.stationView = s.stationView := by
  unfold State.unsubscribe; repeat' split
  all_goals rfl

/-- Reads leave every part of the state but the link. -/
theorem State.pop_state (entry : Byte) (s : State) : (State.pop entry s).2 = s := by
  unfold State.pop; repeat' split
  all_goals rfl
theorem State.readEvent_state (s : State) : s.readEvent.2 = s := by unfold State.readEvent; split <;> rfl
theorem State.readStream_state (stream : Byte) (s : State) : (State.readStream stream s).2 = s := by
  unfold State.readStream; split <;> rfl
theorem State.readSub_state (entry : Byte) (s : State) : (State.readSub entry s).2 = s := by
  unfold State.readSub; split <;> rfl
theorem State.readSlot_state (slot : Byte) (s : State) : (State.readSlot slot s).2 = s := by
  unfold State.readSlot; split <;> rfl

theorem StationKeeps.of_eq {v w : StationView} (h : w = v) : StationKeeps v w := h ▸ .refl w

theorem RequestCode.serve_step (c : RequestCode) (args : List Byte) (s : State) :
    StationStep s.stationView (c.serve args s).2.stationView := by
  cases c with
  | configure => exact State.configure_step ..
  | start => exact s.startRequest_step
  | stop => exact s.stopRequest_step
  | reset => exact (StationKeeps.refl _).step
  | openTx => exact (StationKeeps.of_eq (State.openTx_stationView ..)).step
  | closeTx => exact (StationKeeps.of_eq (State.closeTx_stationView ..)).step
  | push => exact (StationKeeps.of_eq (State.push_stationView ..)).step
  | subscribe => exact (StationKeeps.of_eq (State.subscribe_stationView ..)).step
  | unsubscribe => exact (StationKeeps.of_eq (State.unsubscribe_stationView ..)).step
  | pop => exact (StationKeeps.of_eq (congrArg _ (State.pop_state ..))).step
  | readEvent => exact (StationKeeps.of_eq (congrArg _ s.readEvent_state)).step
  | readStation => exact (StationKeeps.refl _).step
  | readStream => exact (StationKeeps.of_eq (congrArg _ (State.readStream_state ..))).step
  | readSub => exact (StationKeeps.of_eq (congrArg _ (State.readSub_state ..))).step
  | readSlot => exact (StationKeeps.of_eq (congrArg _ (State.readSlot_state ..))).step

theorem State.request_step (s : State) (code : Byte) (args : List Byte) (serve : State → Reply × State)
    (h : StationStep s.stationView (serve s).2.stationView) :
    StationStep s.stationView (s.request code args serve).stationView := by
  rcases s.request_cases code args serve with ⟨-, -, he⟩ | ⟨-, he⟩ <;> rw [he]
  · exact h
  · exact (StationKeeps.refl _).step

theorem State.deviceReset_stationView (s : State) : s.deviceReset.stationView = s.stationView.deviceReset := rfl

/-- A byte takes a request, or resets the part, or moves the link alone. -/
theorem State.takeByte_step (s : State) (b : Byte) :
    StationStep s.stationView (s.takeByte b).stationView ∨
      (b = 0x1F ∧ (s.takeByte b).stationView = s.stationView.deviceReset) := by
  rcases s.takeByte_cases b with ⟨l, he⟩ | ⟨code, serve, he, hs⟩ | ⟨hb, he⟩ | ⟨t, n, -, -, he⟩
  · exact .inl (he ▸ (StationKeeps.refl _).step)
  · refine .inl (he ▸ ?_)
    rcases hs with rfl | ⟨c, args, rfl⟩
    · exact (StationKeeps.refl _).step
    · exact c.serve_step args s
  · exact .inr ⟨hb, he ▸ s.deviceReset_stationView⟩
  · exact .inl (he ▸ (StationKeeps.of_eq (s.commit_stationView t.commit)).step)

/-! ### What the line reports -/

/-- A well-formed beacon names a founder (R5). -/
theorem Frame.parse_founder {pattern : Half} {bytes : List Byte} {b : BeaconFrame}
    (h : Frame.parse pattern bytes = some (.beacon b)) : b.founder ≠ 0 := by
  unfold Frame.parse at h
  split at h
  · obtain ⟨_, _, hx⟩ := Option.map_eq_some_iff.mp h
    cases hx
  · obtain ⟨b', hb, hx⟩ := Option.map_eq_some_iff.mp h
    cases hx
    unfold BeaconFrame.parse at hb
    split at hb
    · split at hb
      · cases hb
      · rename_i hn
        cases hb
        exact fun h0 => hn (.inr h0)
    · cases hb
  · cases h

/-- Carrier on a quiet pair holds the timer that counts (R25). -/
theorem State.carrierStart_keeps (s : State) (time : Time) (h : s.carrier = none) (hl : s.station = .listen) :
    StationKeeps s.stationView
      ({ s with carrier := some time, listenTimer := s.listenTimer.hold } : State).stationView where
  legal L := by
    have hrun : s.listenTimer ≠ .stopped ∧ (s.listenTimer.isCounting = true ↔ s.carrier = none) := L.timerRuns hl
    refine (StationKeeps.timer_by_carrier hl (c := some time) (m := s.listenTimer.hold) ?_ ?_).legal L
    all_goals cases hm : s.listenTimer <;> simp_all [ListenTimer.hold, ListenTimer.isCounting]
  station := rfl
  counters := countersRise_refl _

theorem State.sortBeacon_step (s : State) (t : Timeline) (b : BeaconFrame) (firstBit : Time)
    (h : s.station.onTimeline = true) (hb : b.founder ≠ 0) :
    StationStep s.stationView (s.sortBeacon t b firstBit).stationView := by
  unfold State.sortBeacon
  split
  · exact (StationKeeps.refl _).step
  · split
    · rcases StationState.onTimeline_cases h with hs | hs | hs
      · rw [if_neg (by simp [hs])]; exact s.mergeOnto_step b firstBit (.inl hs) hb
      · rw [if_neg (by simp [hs])]; exact s.mergeOnto_step b firstBit (.inr hs) hb
      · rw [if_pos hs]; exact s.mergeLeaving_step b hs
    · exact (s.countForeign_keeps.trans (State.checkAddress_keeps _ _ h)).step

theorem State.handBeacon_step (s : State) (r : FrameReport)
    (hb : ∀ b, r.frame = some (.beacon b) → b.founder ≠ 0) :
    StationStep s.stationView (s.handBeacon r).stationView := by
  unfold State.handBeacon
  split
  · rename_i b hr
    split
    · exact s.adopt_step b _ _ ‹_› (hb b hr)
    · split
      · rename_i t ht
        have hon : s.station.onTimeline = true := by
          unfold State.running at ht
          split at ht
          · assumption
          · cases ht
        exact s.sortBeacon_step t b _ hon (hb b hr)
      · exact (StationKeeps.refl _).step
  · exact (StationKeeps.refl _).step
  · exact (StationKeeps.refl _).step

theorem State.takeReport_step (s : State) (r : FrameReport)
    (hb : ∀ b, r.frame = some (.beacon b) → b.founder ≠ 0) :
    StationStep s.stationView (s.takeReport r).stationView := by
  unfold State.takeReport
  split
  · exact (s.gatherFrame r).handBeacon_step r hb
  · exact s.handBeacon_step r hb

end Sys2Proof.Machine
end

section
/-! PROOF. What every command does to the station part, and so O55, O11 and O53. -/

namespace Sys2Proof.Machine

open Sys2Proof.Safety

/-! ### The line's events -/

theorem State.listenCarrierEnd_keeps (s : State) (time : Time) (hl : s.station = .listen) :
    StationKeeps s.stationView (({ s with carrier := none } : State).hears time).startTimer.stationView := by
  obtain ⟨m, hm, hc, hv⟩ := (({ s with carrier := none } : State).hears time).startTimer_stationView
  rw [hv, State.hears_stationView]
  exact .timer_by_carrier hl hm (hc.trans (by rw [State.hears_carrier]; rfl))

theorem execCarrierStart_step {time : Time} {s t : State} (h : execCarrierStart time s = .next t) :
    StationStep s.stationView t.stationView := by
  cases h
  split
  · exact (StationKeeps.refl _).step
  · rename_i hc
    split
    · exact (s.carrierStart_keeps time (by simpa using hc) ‹_›).step
    · exact (StationKeeps.carrier_off_listen ‹_›).step

theorem execCarrierEnd_step {time : Time} {s t : State} (h : execCarrierEnd time s = .next t) :
    StationStep s.stationView t.stationView := by
  cases h
  split
  · exact (StationKeeps.refl _).step
  · split
    · exact (s.listenCarrierEnd_keeps time ‹_›).step
    · split <;> exact (StationKeeps.carrier_off_listen ‹_›).step

theorem execFrameReport_step {pattern : Half} {bytes : List Byte} {firstBit lastBit : Time} {s t : State}
    (h : execFrameReport pattern bytes firstBit lastBit s = .next t) : StationStep s.stationView t.stationView := by
  cases h
  refine s.unlessHeld_step _ fun _ => ?_
  have hh : StationKeeps s.stationView (s.hears lastBit).stationView := .of_eq (s.hears_stationView lastBit)
  split
  · split
    · exact hh.step
    · exact hh.then_step (State.takeReport_step _ _ fun b hb => Frame.parse_founder hb)
  · exact (StationKeeps.refl _).step

theorem execJamReport_step {time : Time} {s t : State} (h : execJamReport time s = .next t) :
    StationStep s.stationView t.stationView := by
  cases h
  refine s.unlessHeld_step _ fun _ => ?_
  split
  · exact (StationKeeps.refl _).step
  · exact (StationKeeps.of_eq (s.hears_stationView time)).step

theorem execLeadIn_step {s t : State} (h : execLeadIn s = .next t) : StationStep s.stationView t.stationView := by
  cases h
  refine s.unlessHeld_step _ fun _ => ?_
  split
  · exact (StationKeeps.tx_stage ‹_›).step
  all_goals exact (StationKeeps.refl _).step

theorem execReadBackMismatch_step {s t : State} (h : execReadBackMismatch s = .next t) :
    StationStep s.stationView t.stationView := by
  cases h
  refine s.unlessHeld_step _ fun _ => ?_
  split
  · exact (StationKeeps.tx_stage ‹_›).step
  all_goals exact (StationKeeps.refl _).step

theorem execListenTimerExpiry_step {time : Time} {s t : State} (h : execListenTimerExpiry time s = .next t) :
    StationStep s.stationView t.stationView := by
  cases h
  refine s.unlessHeld_step _ fun _ => ?_
  split
  · rename_i hl
    split
    · exact s.found_step time hl.1
    · obtain ⟨m, hm, hc, hv⟩ := s.startTimer_stationView
      rw [hv]
      exact (StationKeeps.timer_by_carrier (v := s.stationView) (c := s.carrier) hl.1 hm hc).step
  · exact (StationKeeps.refl _).step

/-! ### The cycle events -/

theorem execBeaconPosition_step {p : Position} {s t : State} (h : execBeaconPosition p s = .next t) :
    StationStep s.stationView t.stationView := by
  cases h
  refine s.atEvent_step _ _ fun u _ _ => ?_
  exact ((s.openDivision.openPosition_keeps u p).trans (State.nextIs_keeps _ _)).step

theorem execBeaconPositionClose_step {p : Position} {s t : State} (h : execBeaconPositionClose p s = .next t) :
    StationStep s.stationView t.stationView := by
  cases h
  refine s.atEvent_step _ _ fun u hon _ => ?_
  split
  · exact (StationKeeps.refl _).step
  · exact s.closePosition_step u p hon

theorem execSlotPhaseStart_step {s t : State} (h : execSlotPhaseStart s = .next t) :
    StationStep s.stationView t.stationView := by
  cases h
  refine s.atEvent_step _ _ fun u _ _ => StationKeeps.step (.trans ?_ (State.nextIs_keeps _ _))
  split
  · exact .of_eq s.serveClaims_stationView
  · exact .refl _

theorem execSlotOccurrenceBegin_step {k : SlotNo} {s t : State} (h : execSlotOccurrenceBegin k s = .next t) :
    StationStep s.stationView t.stationView := by
  cases h
  refine s.atEvent_step _ _ fun u _ _ => ?_
  exact ((s.openDivision.beginSlot_keeps k).trans (State.nextIs_keeps _ _)).step

theorem execSlotOccurrenceEnd_step {k : SlotNo} {s t : State} (h : execSlotOccurrenceEnd k s = .next t) :
    StationStep s.stationView t.stationView := by
  cases h
  refine s.atEvent_step _ _ fun u hon _ => ?_
  split
  · exact (StationKeeps.refl _).step
  · split
    · exact s.endOwnSlot_step u k _
    · exact (s.endHeardSlot_keeps u k hon).step

theorem execCycleEnd_step {s t : State} (h : execCycleEnd s = .next t) : StationStep s.stationView t.stationView := by
  cases h
  refine s.atEvent_step _ _ fun u hon _ => ?_
  exact (s.nextIs_keeps .cycleStart).then_step (State.endCycle_step _ hon)

/-! ### Every command -/

theorem execConsumingReadCommit_step {s t : State} (h : execConsumingReadCommit s = .next t) :
    StationStep s.stationView t.stationView := by
  cases h
  refine s.unlessHeld_step _ fun _ => ?_
  split
  · split
    · exact (StationKeeps.of_eq (s.commit_stationView _)).step
    · exact (StationKeeps.refl _).step
  all_goals exact (StationKeeps.refl _).step

/-- The commands that reset the part, by request or by the reset input (R20, R167). -/
def resetsPart (c : Instr) : Prop := c = .reset ∨ c = .resetInputAsserted ∨ c = .byteComplete 0x1F

/-- What a command can do to the station part: move along the table of chapter 2 with no counter falling and the
station laws kept, or reset it. -/
theorem exec_step {c : Instr} {s t : State} (h : exec c s = .next t) :
    StationStep s.stationView t.stationView ∨ (resetsPart c ∧ t.stationView = s.stationView.deviceReset) := by
  have same {t : State} (h : t.stationView = s.stationView) := (StationKeeps.of_eq h).step
  cases c with
  | configure => cases h; exact .inl (s.request_step _ _ _ (State.configure_step ..))
  | start => cases h; exact .inl (s.request_step _ _ _ s.startRequest_step)
  | stop => cases h; exact .inl (s.request_step _ _ _ s.stopRequest_step)
  | openTx => cases h; exact .inl (s.request_step _ _ _ (same (State.openTx_stationView ..)))
  | closeTx n => cases h; exact .inl (s.request_step _ _ _ (same (State.closeTx_stationView ..)))
  | push => cases h; exact .inl (s.request_step _ _ _ (same (State.push_stationView ..)))
  | subscribe => cases h; exact .inl (s.request_step _ _ _ (same (State.subscribe_stationView ..)))
  | unsubscribe => cases h; exact .inl (s.request_step _ _ _ (same (State.unsubscribe_stationView ..)))
  | pop => cases h; exact .inl (s.request_step _ _ _ (same (congrArg _ (State.pop_state ..))))
  | readEvent => cases h; exact .inl (s.request_step _ _ _ (same (congrArg _ s.readEvent_state)))
  | readStation => cases h; exact .inl (s.request_step _ _ _ (same rfl))
  | readStream => cases h; exact .inl (s.request_step _ _ _ (same (congrArg _ (State.readStream_state ..))))
  | readSub => cases h; exact .inl (s.request_step _ _ _ (same (congrArg _ (State.readSub_state ..))))
  | readSlot => cases h; exact .inl (s.request_step _ _ _ (same (congrArg _ (State.readSlot_state ..))))
  | unknownCode =>
    cases h
    split
    · exact .inl (s.request_step _ _ _ (same rfl))
    · exact .inl (same rfl)
  | reset =>
    cases h
    rcases s.unlessHeld_cases (fun s => if s.link.awaits RequestCode.reset.byte [] then s.deviceReset else s)
      with ⟨-, he⟩ | ⟨-, he⟩ <;> rw [he]
    · exact .inl (same rfl)
    · split
      · exact .inr ⟨.inl rfl, s.deviceReset_stationView⟩
      · exact .inl (same rfl)
  | transactionBegin =>
    cases h
    refine .inl (same ?_)
    split
    · rfl
    · split <;> rfl
  | transactionEnd =>
    cases h
    refine .inl (same ?_)
    split
    · rfl
    · split <;> rfl
  | consumingReadCommit => exact .inl (execConsumingReadCommit_step h)
  | resetInputAsserted =>
    cases h
    split
    · exact .inl (same rfl)
    · exact .inr ⟨.inr (.inl rfl), s.deviceReset_stationView⟩
  | resetInputReleased => cases h; refine .inl (same ?_); split <;> rfl
  | cycleStart => cases h; exact .inl (s.atEvent_step _ _ fun u _ hu => (s.startCycle_keeps u hu).step)
  | beaconPosition => exact .inl (execBeaconPosition_step h)
  | beaconPositionClose => exact .inl (execBeaconPositionClose_step h)
  | slotPhaseStart => exact .inl (execSlotPhaseStart_step h)
  | slotOccurrenceBegin => exact .inl (execSlotOccurrenceBegin_step h)
  | leadIn => exact .inl (execLeadIn_step h)
  | slotOccurrenceEnd => exact .inl (execSlotOccurrenceEnd_step h)
  | cycleEnd => exact .inl (execCycleEnd_step h)
  | carrierStart => exact .inl (execCarrierStart_step h)
  | carrierEnd => exact .inl (execCarrierEnd_step h)
  | frameReport => exact .inl (execFrameReport_step h)
  | jamReport => exact .inl (execJamReport_step h)
  | readBackMismatch => exact .inl (execReadBackMismatch_step h)
  | listenTimerExpiry => exact .inl (execListenTimerExpiry_step h)
  | byteComplete b =>
    cases h
    rcases s.unlessHeld_cases (fun s => s.takeByte b) with ⟨-, he⟩ | ⟨-, he⟩ <;> rw [he]
    · exact .inl (same rfl)
    · rcases s.takeByte_step b with hs | ⟨rfl, hr⟩
      · exact .inl hs
      · exact .inr ⟨.inr (.inr rfl), hr⟩

end Sys2Proof.Machine

namespace Sys2Proof.Proofs

open Sys2Proof.Machine Sys2Proof.Safety

/-- Settles O55: a command keeps the laws by what it can do to the station part, and a microsecond ticks the timer. -/
theorem stepKeepsStationLaws : Obligations.StepKeepsStationLaws := by
  intro s t hs h
  rw [stationLegal_iff] at hs ⊢
  unfold step at h
  split at h
  · cases h
    exact StationKeeps.timer_tick.legal hs
  · rcases exec_step h with hstep | ⟨-, hreset⟩
    · exact hstep.legal hs
    · exact hreset ▸ StationView.deviceReset_legal _

/-- Settles O11: a command moves the station state along the table, or resets the part. -/
theorem stationMovesAlongTheTable : Obligations.StationMovesAlongTheTable := by
  intro c s t h hne
  rcases exec_step h with hstep | ⟨hc, hreset⟩
  · exact .inl (hstep.moves hne)
  · exact .inr ⟨congrArg StationView.station hreset, hc⟩

/-- Settles O53: a command lowers no counter, or resets the part to UNCONFIGURED. -/
theorem countersFallOnlyByReset : Obligations.CountersFallOnlyByReset := by
  intro c s t h hon
  rcases exec_step h with hstep | ⟨-, hreset⟩
  · exact hstep.counters
  · exact absurd (congrArg StationView.station hreset) hon

end Sys2Proof.Proofs
end

section
/-! PROOF. The cycle start and what the line reports: O27, O45, O47 and O49. -/

namespace Sys2Proof.Machine

open Sys2Proof.Safety

theorem State.unlessHeld_released {s : State} (h : s.resetHeld = false) (f : State → State) : s.unlessHeld f = f s := by
  simp [State.unlessHeld, h]

theorem State.running_eq {s : State} {t : Timeline} (on : s.station.onTimeline = true) (ht : s.timeline = some t) :
    s.running = some t := by
  simp [State.running, on, ht]

/-! ## The beacon unit's draw at a cycle start (R43) -/

theorem State.drawPosition_idle {s : State} (h : s.station ≠ .active ∨ s.config.beaconEligible = false) :
    s.drawPosition = { s with beaconHeard := false, drawnPosition := none } := by
  rw [State.drawPosition, if_neg]
  rintro ⟨ha, he⟩
  exact h.elim (· ha) fun hn => nomatch he.symm.trans hn

theorem State.drawPosition_eligible {s : State} (ha : s.station = .active) (he : s.config.beaconEligible = true) :
    s.drawPosition =
      { s with draws := s.draws + 1, beaconHeard := false, drawnPosition := some (Fin.ofNat 8 (s.drawn 8)) } :=
  if_pos ⟨ha, he⟩

theorem exec_cycleStart {s : State} {t : Timeline} (h : Due s .cycleStart t) :
    exec .cycleStart s = .next ({ s with timeline := some t.nextCycle }.rotateActivity).drawPosition :=
  let ⟨held, on, ht, hb⟩ := h
  congrArg _ (State.atEvent_due held on ht hb)

/-! ## The listen timer and the carrier (R25) -/

theorem ListenTimer.hold_of_not_counting {m : ListenTimer} (h : ∀ n, m ≠ .counting n) : m.hold = m := by
  cases m with
  | counting n => exact absurd rfl (h n)
  | held n => rfl
  | stopped => rfl

/-- A timer started on a quiet pair counts a wait of 3000 µs and 0 to 7 times 1000 µs (R25). -/
theorem State.startTimer_quiet {s : State} (h : s.carrier = none) :
    ∃ d : Nat, d ≤ 7 ∧
      s.startTimer = { s with draws := s.draws + 1, listenTimer := .counting (3000 + 1000 * d) } := by
  refine ⟨s.drawn 8, Nat.lt_succ_iff.mp (Nat.mod_lt _ (by decide)), ?_⟩
  simp [State.startTimer, h, State.drawUsed, Config.foundWaitBase, Config.foundWaitUnit]

/-! ## Frame reports (R7) -/

theorem StationState.onTimeline_receives {x : StationState} (h : x.onTimeline = true) :
    x.receiverOn = true ∧ x ≠ .listen := by
  cases x <;> simp_all [StationState.onTimeline, StationState.receiverOn]

theorem State.transmitting_iff (s : State) : s.transmitting = true ↔ ∃ x, s.tx = some x ∧ x.stage ≠ .handedOver := by
  cases h : s.tx <;> simp [State.transmitting, h]

theorem FrameKind.ofPattern_isSome {pattern : Half} (h : pattern = 0xAA5C ∨ pattern = 0xAA3A) :
    (FrameKind.ofPattern pattern).isSome = true := by
  rcases h with rfl | rfl <;> decide

/-- While the station's own frame is on the pair a frame report is not acted on (R9, R51). -/
theorem exec_frameReport_transmitting {s : State} (h : s.transmitting = true) (pattern : Half) (bytes : List Byte)
    (firstBit lastBit : Time) : exec (.frameReport pattern bytes firstBit lastBit) s = .next s := by
  have hr : s.reportsFrame pattern = false := by simp [State.reportsFrame, h]
  refine congrArg Host.Outcome.next ?_
  rcases s.unlessHeld_cases _ with ⟨-, he⟩ | ⟨-, he⟩
  · exact he
  · rw [he, hr]; rfl

/-- On a timeline a frame that the receiver does not miss is gathered and, if a clean beacon, handed over. -/
theorem exec_frameReport_onTimeline {s : State} {pattern : Half} {firstBit lastBit : Time}
    (held : s.resetHeld = false) (on : s.station.onTimeline = true) (hp : pattern = 0xAA5C ∨ pattern = 0xAA3A)
    (hm : ¬ Missed s.receiver firstBit lastBit) (hx : s.transmitting = false) (bytes : List Byte) :
    exec (.frameReport pattern bytes firstBit lastBit) s = .next
      ((s.gatherFrame { frame := Frame.parse pattern bytes, firstBit := firstBit, lastBit := lastBit }).handBeacon
        { frame := Frame.parse pattern bytes, firstBit := firstBit, lastBit := lastBit }) := by
  obtain ⟨hon, hl⟩ := StationState.onTimeline_receives on
  have hr : s.reportsFrame pattern = true := by
    simp [State.reportsFrame, hon, FrameKind.ofPattern_isSome hp, hx]
  have hmiss : s.receiver.misses firstBit lastBit = false := by
    rw [← Bool.not_eq_true, Receiver.misses_iff]; exact hm
  refine congrArg _ ((State.unlessHeld_released held _).trans ?_)
  simp [hr, hmiss, State.hears_of_ne s lastBit hl, State.takeReport, on]

/-- A report that is no beacon of another founder changes nothing at the beacon unit. -/
theorem State.handBeacon_of_own {s : State} {t : Timeline} {r : FrameReport} (on : s.station.onTimeline = true)
    (ht : s.timeline = some t) (h : ∀ b : BeaconFrame, r.frame = some (.beacon b) → b.founder = t.founder) :
    s.handBeacon r = s := by
  have hl := (StationState.onTimeline_receives on).2
  unfold State.handBeacon
  split
  · rename_i b hb
    rw [if_neg hl, State.running_eq on ht]
    exact if_pos (h b hb)
  · rfl
  · rfl

/-- A foreign beacon of a higher founder is counted and its sender checked (R54). -/
theorem State.handBeacon_of_higher {s : State} {t : Timeline} {r : FrameReport} {b : BeaconFrame}
    (on : s.station.onTimeline = true) (ht : s.timeline = some t) (hr : r.frame = some (.beacon b))
    (h : t.founder < b.founder) : s.handBeacon r = s.countForeign.checkAddress b.sender := by
  have hl := (StationState.onTimeline_receives on).2
  have hne : b.founder ≠ t.founder := fun he => absurd (he ▸ h) (BitVec.lt_irrefl _)
  have hnlt : ¬ b.founder < t.founder := BitVec.lt_asymm h
  simp [State.handBeacon, hr, hl, State.running_eq on ht, State.sortBeacon, hne, hnlt]

/-- The check of a sender posts a clash where it is the station's own address and none was posted before (R51). -/
theorem State.checkAddress_eq (s : State) (a : Address) :
    s.checkAddress a = { s with
      sessionFlag := s.sessionFlag || a == s.config.address
      events := if a = s.config.address ∧ s.sessionFlag = false then
          enqueueEvent s.events { event := .addressClash, cycle := s.cycleNumber }
        else s.events } := by
  unfold State.checkAddress State.raiseClash
  by_cases h : a = s.config.address ∧ s.sessionFlag = false
  · rw [if_pos h.1, if_neg (by simp [h.2]), if_pos h, h.2, beq_iff_eq.mpr h.1]
    rfl
  · have hflag : (s.sessionFlag || a == s.config.address) = s.sessionFlag := by
      cases hf : s.sessionFlag <;> simp_all
    rw [if_neg h, hflag]
    split
    · rw [if_pos (by simp_all)]
    · rfl

/-! ## The line interface (R6, R11, R178) -/

theorem exec_leadIn {s : State} (held : s.resetHeld = false) :
    exec .leadIn s = .next (match s.tx with
      | some { frame := f, stage := .handedOver } => { s with tx := some { frame := f, stage := .sending } }
      | _ => s) := by
  refine congrArg _ ((State.unlessHeld_released held _).trans ?_)
  rcases s.tx with _ | ⟨f, _ | _ | _⟩ <;> rfl

theorem exec_readBackMismatch {s : State} (held : s.resetHeld = false) :
    exec .readBackMismatch s = .next (match s.tx with
      | some { frame := f, stage := .sending } => { s with tx := some { frame := f, stage := .jamming } }
      | _ => s) := by
  refine congrArg _ ((State.unlessHeld_released held _).trans ?_)
  rcases s.tx with _ | ⟨f, _ | _ | _⟩ <;> rfl

theorem exec_jamReport {s : State} (held : s.resetHeld = false) (time : Time) :
    exec (.jamReport time) s = .next
      (if s.station.onTimeline then { s with reports := { s.reports with jams := s.reports.jams ++ [time] } }
       else s.hears time) :=
  congrArg _ (State.unlessHeld_released held _)

end Sys2Proof.Machine

namespace Sys2Proof.Proofs

open Sys2Proof.Machine Sys2Proof.Safety

/-- Settles O27: a due cycle start does its work, and the draw is made or not by state and configuration. -/
theorem cycleStartAdvancesAndDraws : Obligations.CycleStartAdvancesAndDraws := by
  intro s t due
  rw [exec_cycleStart due]
  constructor
  · intro h
    exact congrArg Host.Outcome.next
      (State.drawPosition_idle (s := { s with timeline := some t.nextCycle }.rotateActivity) h)
  · intro ha he
    exact ⟨_, congrArg Host.Outcome.next
      (State.drawPosition_eligible (s := { s with timeline := some t.nextCycle }.rotateActivity) ha he)⟩

/-- Settles O45, report by report and station state by station state. -/
theorem carrierReportsHoldAndRestart : Obligations.CarrierReportsHoldAndRestart := by
  intro s time since
  refine ⟨fun hc => ?_, fun hc => ⟨fun n hl hm => ?_, fun h => ?_, ?_⟩,
    fun hc => ⟨fun hl => ?_, fun hon => ?_, fun h => ?_⟩⟩
  · simp [exec, execCarrierStart, hc]
  · simp [exec, execCarrierStart, hc, hl, hm, ListenTimer.hold]
  · by_cases hl : s.station = .listen
    · have hm : s.listenTimer.hold = s.listenTimer :=
        ListenTimer.hold_of_not_counting (h.resolve_left (not_not_intro hl))
      simp [exec, execCarrierStart, hc, hl, hm]
    · simp [exec, execCarrierStart, hc, hl]
  · simp [exec, execCarrierEnd, hc]
  · obtain ⟨d, hd, ht⟩ := State.startTimer_quiet (s := ({ s with carrier := none } : State).hears time) (by simp)
    have he : exec (.carrierEnd time) s = .next (({ s with carrier := none } : State).hears time).startTimer := by
      simp [exec, execCarrierEnd, hc, hl]
    exact ⟨d, hd, by rw [he, ht, State.hears_listen { s with carrier := none } time hl]⟩
  · have hl := (StationState.onTimeline_receives hon).2
    simp [exec, execCarrierEnd, hc, hl, hon, Config.quietTime]
  · rcases h with h | h <;> simp [exec, execCarrierEnd, hc, h, StationState.onTimeline]

/-- Settles O47: a report given while transmitting changes nothing; another is gathered and sorted by founder. -/
theorem frameReportsOnATimeline : Obligations.FrameReportsOnATimeline := by
  rintro s pattern bytes firstBit lastBit t _ held on ht hp hm rfl
  refine ⟨fun hx => ?_, fun hx => ?_⟩
  · exact exec_frameReport_transmitting (s.transmitting_iff.mpr hx) pattern bytes firstBit lastBit
  · have hquiet : s.transmitting = false := by
      rw [← Bool.not_eq_true, State.transmitting_iff]
      rintro ⟨x, hs, hne⟩
      exact hne (hx x hs)
    rw [exec_frameReport_onTimeline held on hp hm hquiet bytes]
    generalize hr : FrameReport.mk (Frame.parse pattern bytes) firstBit lastBit = r
    have hf : r.frame = Frame.parse pattern bytes := hr ▸ rfl
    rw [← hf]
    refine ⟨fun h => ?_, fun b hb h => ?_⟩
    · rw [State.handBeacon_of_own (s := s.gatherFrame r) on ht h]
      rfl
    · rw [State.handBeacon_of_higher (s := s.gatherFrame r) on ht hb h, State.checkAddress_eq]
      simp [State.countForeign, State.gatherFrame, State.cycleNumber, ht]

/-- Settles O49, by the stage of the transmission and by the station state. -/
theorem leadInMismatchAndJam : Obligations.LeadInMismatchAndJam := by
  intro s f time held
  rw [exec_leadIn held, exec_readBackMismatch held, exec_jamReport held]
  refine ⟨fun h => ?_, fun h => ?_, fun h => ?_, fun h => ?_, fun h => ?_, fun h => ?_, fun h => ?_, fun h => ?_,
    fun h => ?_⟩
  · simp [h]
  · simp [h]
  · rcases h with h | h <;> simp [h]
  · simp [State.lineEnable, State.transmitting, State.lineTx, h]
  · simp [State.lineEnable, State.transmitting, State.lineTx, jamLevel, h]
  · rcases h with h | h <;> simp [State.lineEnable, State.transmitting, State.lineTx, h]
  · rw [if_pos h]
  · rw [if_neg (by simp [h, StationState.onTimeline]), State.hears_listen s time h]
  · rcases h with h | h <;>
      rw [if_neg (by simp [h, StationState.onTimeline]), State.hears_of_ne s time (by simp [h])]

end Sys2Proof.Proofs
end

section
/-! PROOF. What the pair carried in a division, and the close of the station's own beacon position: O31 and O29. -/

namespace Sys2Proof.Machine

open Sys2Proof.Safety

/-! ## The class of a division (R8, R9) -/

theorem Reports.jamWithin_iff (r : Reports) (opens closes : Time) :
    r.jamWithin opens closes = true ↔ ∃ j ∈ r.jams, opens ≤ j ∧ j ≤ closes := by
  simp [Reports.jamWithin]

theorem Span.meets_iff (sp : Span) (opens closes : Time) :
    sp.meets opens closes = true ↔ sp.begins < closes ∧ opens < sp.ends := by
  simp [Span.meets]

theorem Span.inside_iff (sp : Span) (opens closes firstBit lastBit : Time) :
    sp.inside opens closes firstBit lastBit = true ↔
      firstBit ≤ max sp.begins opens ∧ min sp.ends closes ≤ lastBit := by
  simp only [Span.inside, Bool.and_eq_true, decide_eq_true_eq]

section Classify

variable {α : Type} {r : Reports} {carrier : Option Time} {opens closes : Time} {pick : FrameReport → Option α}

theorem classify_of_jam (h : r.jamWithin opens closes = true) : classify r carrier opens closes pick = .collided :=
  if_pos h

/-- Every stretch of carrier within the division lies within the frame. -/
theorem all_inside_iff (f : FrameReport) :
    ((r.spans carrier closes).all
        fun sp => !sp.meets opens closes || sp.inside opens closes f.firstBit f.lastBit) = true ↔
      ∀ sp ∈ r.spans carrier closes, sp.begins < closes → opens < sp.ends →
        f.firstBit ≤ max sp.begins opens ∧ min sp.ends closes ≤ f.lastBit := by
  simp only [List.all_eq_true, Bool.or_eq_true, Bool.not_eq_true', ← Bool.not_eq_true, Span.meets_iff, Span.inside_iff]
  exact forall₂_congr fun sp _ => ⟨fun h hb he => h.resolve_left (not_not_intro ⟨hb, he⟩),
    fun h => or_iff_not_imp_left.mpr fun hn => h (not_not.mp hn).1 (not_not.mp hn).2⟩

theorem classify_of_no_frame (hj : r.jamWithin opens closes = false) (hf : r.frames = []) :
    classify r carrier opens closes pick =
      if (r.spans carrier closes).any (fun sp => sp.meets opens closes) then .damaged else .silent := by
  simp [classify, hj, hf]

/-- One frame report makes a division CLEAN or DAMAGED. -/
theorem classify_of_frame (hj : r.jamWithin opens closes = false) {f : FrameReport} (hf : r.frames = [f]) :
    (∃ heard, pick f = some heard ∧ opens ≤ f.firstBit ∧ f.lastBit ≤ closes ∧
      (∀ sp ∈ r.spans carrier closes, sp.begins < closes → opens < sp.ends →
        f.firstBit ≤ max sp.begins opens ∧ min sp.ends closes ≤ f.lastBit) ∧
      classify r carrier opens closes pick = .clean heard) ∨
    (¬ (opens ≤ f.firstBit ∧ f.lastBit ≤ closes ∧
        (∀ sp ∈ r.spans carrier closes, sp.begins < closes → opens < sp.ends →
          f.firstBit ≤ max sp.begins opens ∧ min sp.ends closes ≤ f.lastBit) ∧ (pick f).isSome = true) ∧
      classify r carrier opens closes pick = .damaged) := by
  simp only [← all_inside_iff]
  unfold classify
  rw [hj, hf]
  by_cases h : opens ≤ f.firstBit ∧ f.lastBit ≤ closes ∧ ((r.spans carrier closes).all
      fun sp => !sp.meets opens closes || sp.inside opens closes f.firstBit f.lastBit) = true
  · cases hp : pick f with
    | some heard => exact .inl ⟨heard, rfl, h.1, h.2.1, h.2.2, by simp [h, hp]⟩
    | none => exact .inr ⟨by simp, by simp [h, hp]⟩
  · exact .inr ⟨fun hn => h ⟨hn.1, hn.2.1, hn.2.2.1⟩, by simp only [if_neg h]; rfl⟩

theorem classify_of_frames (hj : r.jamWithin opens closes = false) (hne : r.frames ≠ [])
    (hone : ∀ f, r.frames ≠ [f]) : classify r carrier opens closes pick = .damaged := by
  unfold classify
  rw [hj]
  match h : r.frames with
  | [] => exact absurd h hne
  | [f] => exact absurd h (hone f)
  | _ :: _ :: _ => rfl

end Classify

theorem pickSlotFrame_iff (f : FrameReport) (g : SlotFrame) :
    pickSlotFrame f = some g ↔ f.frame = some (.slot g) := by
  unfold pickSlotFrame
  split <;> simp_all

theorem pickBeacon_of_beacon {f : FrameReport} {b : BeaconFrame} (h : f.frame = some (.beacon b)) (t : Timeline)
    (p : Position) :
    pickBeacon t p f = if b.founder = t.founder then
      if b.position = p ∧ |f.firstBit - (t.startedAt + 12000 * p.val + 1000)| < 50 then some (.own b f.firstBit)
      else none
    else some (.foreign b) := by
  have hw : (f.firstBit - (t.positionOpens p + Config.leadInTime)).natAbs < Config.bitTime.natAbs ↔
      |f.firstBit - (t.startedAt + 12000 * p.val + 1000)| < 50 := by
    simp only [Timeline.positionOpens, Config.positionTime, Config.leadInTime, Config.bitTime, Time, abs_lt]
    omega
  simp only [pickBeacon, h, hw]

/-! ## The outcome of the station's own transmission (R12) -/

theorem State.outcome_eq {s : State} {x : Transmission} {opens closes : Time} {collided : Bool}
    (h : collided = true ↔ (x.stage = .jamming ∨ ∃ j ∈ s.reports.jams, opens ≤ j ∧ j ≤ closes)) :
    s.outcome x opens closes = if collided then .collided else .clean := by
  simp only [State.outcome, Reports.jamWithin_iff, h]

theorem State.awaitsLeadIn_started {s : State} {x : Transmission} (hx : s.tx = some x) (h : x.stage ≠ .handedOver) :
    s.awaitsLeadIn = false := by
  simp [State.awaitsLeadIn, hx, h]

theorem exec_beaconPositionClose_own {s : State} {p : Position} {t : Timeline} {x : Transmission}
    (due : Due s (.positionClose p) t) (hx : s.tx = some x) (h : x.stage ≠ .handedOver) :
    exec (.beaconPositionClose p) s = .next
      ((s.closeDivision.beaconOutcome (s.outcome x (t.positionOpens p) (t.positionCloses p))).nextIs
        (Boundary.afterPosition p)).checkLeft := by
  obtain ⟨held, on, ht, hb⟩ := due
  refine congrArg Host.Outcome.next ((State.atEvent_due held on ht hb).trans ?_)
  simp [State.awaitsLeadIn_started hx h, State.closePosition, hx]

/-! ## The check of a station that leaves (R37) -/

theorem MapEntry.isMine_iff (e : MapEntry) : e.isMine = true ↔ ∃ i c f, e = .mine i c f := by
  cases e <;> simp [MapEntry.isMine]

theorem State.anyMine_iff (s : State) :
    s.anyMine = true ↔ ∃ (k : SlotNo) (i : StreamNo) (c : Nat) (f : Bool), s.map[k] = .mine i c f := by
  simp [State.anyMine, allSlots, MapEntry.isMine_iff]

theorem State.checkLeft_stays {s : State}
    (h : s.station ≠ .leaving ∨ ∃ (k : SlotNo) (i : StreamNo) (c : Nat) (f : Bool), s.map[k] = .mine i c f) :
    s.checkLeft = s := by
  rw [← State.anyMine_iff] at h
  refine if_neg fun hn => ?_
  exact h.elim (· hn.1) fun hm => nomatch hm.symm.trans hn.2

theorem Subscription.rewait_eq (r : Subscription) :
    r.rewait = if r.state = .idle then r else
      { r with state := .waiting, expected := none, quietCount := 0, presence := false } := by
  cases h : r.state <;> simp [Subscription.rewait, SubState.used, h]

theorem State.arriveReady_left (s : State) : ArrivesLeft s (s.arriveReady .left) := by
  refine ⟨?_, fun l => ?_, fun k => ?_, fun e => ?_⟩
  · rfl
  · exact s.leaveTimeline.clearMap.emptyClaims_lane l
  · exact s.leaveTimeline.clearMap_get k
  · exact (State.mapSubs_get s.leaveTimeline.clearMap.emptyClaims Subscription.rewait e).trans
      (Subscription.rewait_eq _)

theorem State.checkLeft_arrives {s : State} (hl : s.station = .leaving)
    (h : ∀ (k : SlotNo) (i : StreamNo) (c : Nat) (f : Bool), s.map[k] ≠ .mine i c f) : ArrivesLeft s s.checkLeft := by
  have hm : s.anyMine = false := by
    rw [← Bool.not_eq_true, State.anyMine_iff]
    rintro ⟨k, i, c, f, he⟩
    exact h k i c f he
  have he : s.checkLeft = s.arriveReady .left := if_pos ⟨hl, hm⟩
  exact he ▸ s.arriveReady_left

end Sys2Proof.Machine

namespace Sys2Proof.Proofs

open Sys2Proof.Machine Sys2Proof.Safety

/-- Settles O31, by the jam reports and then by the number of frame reports. -/
theorem classIsTheFirstLineThatApplies : Obligations.ClassIsTheFirstLineThatApplies := by
  intro α r carrier opens closes pick
  refine ⟨fun hj => classify_of_jam ((r.jamWithin_iff ..).mpr hj), fun hj => ?_, fun s t k => rfl, pickSlotFrame_iff,
    fun s t p => rfl, fun t p f => ⟨fun h => ?_, fun b hb => ?_⟩⟩
  · have hj : r.jamWithin opens closes = false := by
      rw [← Bool.not_eq_true, Reports.jamWithin_iff]
      rintro ⟨j, hm, ho⟩
      exact hj j hm ho
    refine ⟨fun hf hs => ?_, fun f heard hf ho hc hs hp => ?_, fun hne hno => ?_⟩
    · rw [classify_of_no_frame hj hf, if_neg]
      simpa [Span.meets_iff] using hs
    · rcases classify_of_frame (carrier := carrier) (pick := pick) hj hf with ⟨heard', hp', -, -, -, he⟩ | ⟨hn, -⟩
      · rw [he, Option.some.inj (hp.symm.trans hp')]
      · exact absurd ⟨ho, hc, hs, by simp [hp]⟩ hn
    · match hf : r.frames with
      | [] =>
        rw [classify_of_no_frame hj hf, if_pos]
        simpa [Span.meets_iff] using hne.resolve_left (not_not_intro hf)
      | [f] =>
        rcases classify_of_frame (carrier := carrier) (pick := pick) hj hf with ⟨heard, hp, ho, hc, hs, -⟩ | ⟨-, he⟩
        · exact absurd ⟨ho, hc, hs, by simp [hp]⟩ (hno f hf)
        · exact he
      | _ :: _ :: _ => exact classify_of_frames hj (by simp [hf]) (by simp [hf])
  · unfold pickBeacon
    split
    · exact absurd ‹_› (h _)
    · rfl
    · rfl
  · rw [pickBeacon_of_beacon hb t p]
    refine ⟨fun hn => if_neg hn, fun he => ⟨fun hp hw => ?_, fun hn => ?_⟩⟩
    · rw [if_pos he, if_pos ⟨hp, hw⟩]
    · rw [if_pos he, if_neg]
      rintro ⟨hp, hw⟩
      exact hn.elim (· hp) fun hge => absurd hw (not_lt.mpr hge)

/-- Settles O29: the outcome makes `u`, and the check of R37 leaves it or lets the station arrive in READY. -/
theorem ownBeaconOutcome : Obligations.OwnBeaconOutcome := by
  intro s p t x due hx hstage u hu
  have ht : s.timeline = some t := due.2.2.1
  have he : exec (.beaconPositionClose p) s = .next u.checkLeft := by
    rw [exec_beaconPositionClose_own due hx hstage]
    rcases hu with ⟨hc, rfl⟩ | ⟨⟨hs, hj⟩, rfl⟩
    · have ho : s.outcome x (t.positionOpens p) (t.positionCloses p) = .collided :=
        State.outcome_eq (collided := true) (iff_of_true rfl hc)
      rw [ho]
      simp [State.beaconOutcome, State.countClash, State.closeDivision, State.nextIs, ht, nextDue]
    · have hn : ¬ (x.stage = .jamming ∨ ∃ j ∈ s.reports.jams, t.positionOpens p ≤ j ∧ j ≤ t.positionCloses p) := by
        rintro (hjam | ⟨j, hm, ho⟩)
        · exact nomatch hs.symm.trans hjam
        · exact hj j hm ho
      rw [State.outcome_eq (collided := false) (iff_of_false (by decide) hn)]
      simp [State.beaconOutcome, State.beaconWasHeard, State.countCleanBeacon, State.closeDivision, State.nextIs, ht,
        nextDue]
  have hmap : u.map = s.map := by rcases hu with ⟨-, rfl⟩ | ⟨-, rfl⟩ <;> rfl
  have hstation : u.station = s.station := by rcases hu with ⟨-, rfl⟩ | ⟨-, rfl⟩ <;> rfl
  rw [he, ← hmap, ← hstation]
  exact ⟨fun h => by rw [State.checkLeft_stays h], fun hl h => ⟨_, rfl, State.checkLeft_arrives hl h⟩⟩

end Sys2Proof.Proofs
end

section
/-! PROOF. The outcome of the station's own slot frame: O37, O40 and O41. -/

namespace Sys2Proof.Machine

open Sys2Proof.Safety

/-! ## The end of an occurrence that carried the station's own frame (R10, R12) -/

/-- The state once the division has closed and the outcome is recorded (R15, R16). -/
def State.slotClosed (s : State) (k : SlotNo) (collided : Bool) : State :=
  { s with
    tx := none, reports := Reports.empty, activityCurrent := s.activityCurrent.set k true
    counters := { s.counters with
      collidedSlots := if collided then bump s.counters.collidedSlots else s.counters.collidedSlots } }

/-- The outcome of a transmission that collided or did not. -/
def Outcome.ofCollided (collided : Bool) : Outcome := if collided then .collided else .clean

theorem State.recordOutcome_eq (s : State) (k : SlotNo) (collided : Bool) :
    s.closeDivision.recordOutcome k (.ofCollided collided) = s.slotClosed k collided := by
  cases collided <;> rfl

theorem State.nextIs_eq {s : State} {t : Timeline} (h : s.timeline = some t) (b : Boundary) :
    s.nextIs b = { s with timeline := nextDue t b } := by
  simp [State.nextIs, h, nextDue]

section OwnSlot

variable {s : State} {k : SlotNo} {t : Timeline} {x : Transmission} {f : SlotFrame} {collided : Bool}

theorem exec_slotOccurrenceEnd_own (due : Due s (.slotEnd k) t) (hx : s.tx = some x) (hs : x.stage ≠ .handedOver) :
    exec (.slotOccurrenceEnd k) s = .next (s.endOwnSlot t k x) := by
  obtain ⟨held, on, ht, hb⟩ := due
  refine congrArg Host.Outcome.next ((State.atEvent_due held on ht hb).trans ?_)
  simp [State.awaitsLeadIn_started hx hs, hx]

/-- The outcome of a CLAIM goes to the claim engine, and a station that leaves is checked (R10, R37). -/
theorem exec_slotOccurrenceEnd_claim (due : Due s (.slotEnd k) t) (hx : s.tx = some x) (hs : x.stage ≠ .handedOver)
    (hf : x.frame = .slot f) (hm : f.mark = .claim)
    (hc : collided = true ↔ (x.stage = .jamming ∨ ∃ j ∈ s.reports.jams, t.slotOpens k ≤ j ∧ j ≤ t.slotCloses k)) :
    exec (.slotOccurrenceEnd k) s = .next
      (((s.slotClosed k collided).claimOutcome k (.ofCollided collided)).nextIs (Boundary.afterSlot k)).checkLeft := by
  have ho : s.outcome x (t.slotOpens k) (t.slotCloses k) = .ofCollided collided := State.outcome_eq hc
  obtain ⟨_, _⟩ := x
  obtain ⟨_, _, _, _, _⟩ := f
  cases hf
  cases hm
  have hcarries : s.carriesBeaconOrClaim = true := by simp [State.carriesBeaconOrClaim, hx]
  rw [exec_slotOccurrenceEnd_own due hx hs, State.endOwnSlot, ho, State.recordOutcome_eq, hcarries]
  rfl

/-- After a DATA or FILL that leaves its slot MINE no check is made (R37). -/
theorem exec_slotOccurrenceEnd_stream (due : Due s (.slotEnd k) t) (hx : s.tx = some x) (hs : x.stage ≠ .handedOver)
    (hf : x.frame = .slot f) (hm : f.mark ≠ .claim)
    (hc : collided = true ↔ (x.stage = .jamming ∨ ∃ j ∈ s.reports.jams, t.slotOpens k ≤ j ∧ j ≤ t.slotCloses k))
    {u : State} (hu : (s.slotClosed k collided).takeOutcome k (.slot f) (.ofCollided collided) = u)
    (hmine : u.map[k].isMine = true) :
    exec (.slotOccurrenceEnd k) s = .next (u.nextIs (Boundary.afterSlot k)) := by
  have ho : s.outcome x (t.slotOpens k) (t.slotCloses k) = .ofCollided collided := State.outcome_eq hc
  have hcarries : s.carriesBeaconOrClaim = false := by
    obtain ⟨_, _⟩ := x
    cases hf
    simp [State.carriesBeaconOrClaim, hx, hm]
  have hstay : (u.nextIs (Boundary.afterSlot k)).map[k].isMine = true := hmine
  rw [exec_slotOccurrenceEnd_own due hx hs, State.endOwnSlot, ho, State.recordOutcome_eq, hcarries, hf, hu]
  refine congrArg Host.Outcome.next (if_neg ?_)
  rw [hstay]
  simp

end OwnSlot

theorem State.takeOutcome_data {f : SlotFrame} (h : f.mark = .data) (s : State) (k : SlotNo) (o : Outcome) :
    s.takeOutcome k (.slot f) o = s.dataOutcome k o := by
  obtain ⟨_, _, _, _, _⟩ := f
  cases h
  rfl

theorem State.takeOutcome_fill {f : SlotFrame} (h : f.mark = .fill) (s : State) (k : SlotNo) (o : Outcome) :
    s.takeOutcome k (.slot f) o = s.fillOutcome k o := by
  obtain ⟨_, _, _, _, _⟩ := f
  cases h
  rfl

/-! ## The stream unit's outcomes (R112 to R114) -/

theorem State.clearConflict_mine {s : State} {k : SlotNo} {i : StreamNo} {c : Nat} {p : Bool}
    (h : s.map[k] = .mine i c p) : s.clearConflict k = s.setEntry k (.mine i 0 p) := by
  simp only [State.clearConflict, h]

theorem State.raiseConflict_first {s : State} {k : SlotNo} {i : StreamNo} {p : Bool}
    (h : s.map[k] = .mine i 0 p) : s.raiseConflict k = s.setEntry k (.mine i 1 p) := by
  simp only [State.raiseConflict, h]
  rfl

theorem State.deliverTransit_eq {s : State} {b : InTransit} (h : s.inTransit = some b) :
    s.deliverTransit = { s with
      inTransit := none, freeList := s.freeList ++ [b.block.buffer]
      streams := s.streams.set b.stream { s.streams[b.stream] with
        sequence := s.streams[b.stream].sequence + 1, blocksSent := bump s.streams[b.stream].blocksSent } } := by
  simp only [State.deliverTransit, h]
  rfl

theorem State.settleTransit_returns {s : State} {b : InTransit} (h : s.inTransit = some b)
    (hd : b.disposal = .returnToQueue) :
    s.settleTransit = { s with
      inTransit := none
      streams := s.streams.set b.stream
        { s.streams[b.stream] with queue := b.block :: s.streams[b.stream].queue } } := by
  simp only [State.settleTransit, h, hd]
  rfl

theorem State.settleTransit_frees {s : State} {b : InTransit} (h : s.inTransit = some b)
    (hd : b.disposal = .freeBuffer) :
    s.settleTransit = { s with inTransit := none, freeList := s.freeList ++ [b.block.buffer] } := by
  simp only [State.settleTransit, h, hd]
  rfl

theorem State.setEntry_isMine (s : State) (k : SlotNo) (i : StreamNo) (c : Nat) (p : Bool) :
    (s.setEntry k (.mine i c p)).map[k].isMine = true := by
  rw [State.setEntry_get, if_pos rfl]; rfl

end Sys2Proof.Machine

namespace Sys2Proof.Proofs

open Sys2Proof.Machine Sys2Proof.Safety

/-- Settles O37: the frame's outcome leaves the slot MINE, so that the close makes no check of R37. -/
theorem ownDataAndFillOutcomes : Obligations.OwnDataAndFillOutcomes := by
  rintro s k t x f i c p due hx hstage hf hk collided hc _ rfl
  have ht : s.timeline = some t := due.2.2.1
  have ends (m : f.mark ≠ .claim) {w : State} (n : Nat) (hw : w.timeline = some t)
      (h : (s.slotClosed k collided).takeOutcome k (.slot f) (.ofCollided collided) = w.setEntry k (.mine i n p)) :
      exec (.slotOccurrenceEnd k) s = .next
        { w with map := w.map.set k (.mine i n p), timeline := nextDue t (Boundary.afterSlot k) } := by
    rw [exec_slotOccurrenceEnd_stream due hx hstage hf m hc h (w.setEntry_isMine k i n p)]
    exact congrArg _ (State.nextIs_eq (s := w.setEntry k (.mine i n p)) hw _)
  refine ⟨fun hm hcc => ?_, fun b hm hb hbi => ?_⟩
  · refine ends (by simp [hm]) (if collided then 1 else 0) (w := s.slotClosed k collided) ht ?_
    rw [State.takeOutcome_fill hm]
    cases collided
    · exact State.clearConflict_mine (s := s.slotClosed k false) hk
    · rcases hcc with h | rfl
      · cases h
      · exact State.raiseConflict_first (s := s.slotClosed k true) hk
  · subst hbi
    have hb' : (s.slotClosed k collided).inTransit = some b := hb
    have mark : f.mark ≠ .claim := by simp [hm]
    rw [State.takeOutcome_data hm] at ends
    refine ⟨?_, ?_, ?_⟩
    · rintro rfl
      have hd := State.deliverTransit_eq hb'
      rw [ends mark 0 (by rw [hd]; exact ht) (State.clearConflict_mine (by rw [hd]; exact hk)), hd]
      simp only [State.slotClosed]
      rfl
    · rintro rfl rfl hr
      have hd := State.settleTransit_returns hb' hr
      rw [ends mark 1 (by rw [hd]; exact ht) (State.raiseConflict_first (by rw [hd]; exact hk)), hd]
      simp only [State.slotClosed]
      rfl
    · rintro rfl rfl hr
      have hd := State.settleTransit_frees hb' hr
      rw [ends mark 1 (by rw [hd]; exact ht) (State.raiseConflict_first (by rw [hd]; exact hk)), hd]
      simp only [State.slotClosed]
      rfl

end Sys2Proof.Proofs
end

section
/-! PROOF. The outcome of a CLAIM (R92 to R97): O40 and O41. -/

namespace Sys2Proof.Machine

open Sys2Proof.Safety

/-! ## The lane that waits for an outcome (R92) -/

theorem LaneNo.eq_zero_or_one : ∀ l : LaneNo, l = 0 ∨ l = 1 := by decide

/-- In a legal state one lane at most carries a slot, as its entry says. -/
theorem State.laneOfSlot_eq {s : State} {k : SlotNo} {l : LaneNo} {r : Lane} (claims : ClaimsLegal s)
    (hl : s.lanes[l] = some r) (hk : r.slot = k) : s.laneOfSlot k = some (l, r) := by
  have probed : s.map[k] = .probe l r.stream := hk ▸ (claims.lanedClaims l r hl).2.1
  rcases LaneNo.eq_zero_or_one l with rfl | rfl
  · have h0 : s.lanes[0] = some r := hl
    simp [State.laneOfSlot, h0, hk]
  · have h1 : s.lanes[1] = some r := hl
    match h0 : s.lanes[0] with
    | none => simp [State.laneOfSlot, h0, h1, hk]
    | some q =>
      have hq : q.slot ≠ k := fun he => by
        have hp : s.map[k] = .probe 0 q.stream := he ▸ (claims.lanedClaims 0 q h0).2.1
        cases probed.symm.trans hp
      simp [State.laneOfSlot, h0, h1, hk, hq]

theorem State.laneOfSlot_none {s : State} {k : SlotNo}
    (h : ∀ (l : LaneNo) (r : Lane), s.lanes[l] = some r → r.slot ≠ k) : s.laneOfSlot k = none := by
  unfold State.laneOfSlot
  split
  · rename_i r h0
    rw [if_neg (h 0 r h0)]
    split
    · rename_i q h1
      exact if_neg (h 1 q h1)
    · rfl
  · split
    · rename_i q h1
      exact if_neg (h 1 q h1)
    · rfl

/-! ## The outcome of a probe (R92 to R95) -/

theorem State.claimOutcome_discarded {s : State} {k : SlotNo} (h : s.laneOfSlot k = none) (o : Outcome) :
    s.claimOutcome k o = s := by
  simp only [State.claimOutcome, h]

section Probe

variable {s : State} {k : SlotNo} {l : LaneNo} {r : Lane}

theorem State.claimOutcome_counts (h : s.laneOfSlot k = some (l, r)) (hc : r.cleanCount < 2) :
    s.claimOutcome k .clean =
      { s with lanes := s.lanes.set l (some { r with cleanCount := r.cleanCount + 1 }) } := by
  have hn : r.cleanCount + 1 < Config.probeCycles := Nat.add_lt_add_right hc 1
  simp only [State.claimOutcome, h, if_pos hn]
  rfl

/-- The stream's record once its third clean CLAIM has won the slot (R93). -/
def Stream.won (q : Stream) (k : SlotNo) : Stream :=
  { q with
    held := q.held ++ [k], attempts := 0
    state := if q.held.length + 1 = q.wanted then .live else q.state
    shortPosted := if q.held.length + 1 = q.wanted then false else q.shortPosted }

theorem Stream.won_last {q : Stream} (h : q.held.length + 1 = q.wanted) (k : SlotNo) :
    q.won k = { q with held := q.held ++ [k], attempts := 0, state := .live, shortPosted := false } := by
  simp [Stream.won, h]

theorem Stream.won_more {q : Stream} (h : ¬ q.held.length + 1 = q.wanted) (k : SlotNo) :
    q.won k = { q with held := q.held ++ [k], attempts := 0 } := by
  simp [Stream.won, h]

theorem State.claimOutcome_wins (h : s.laneOfSlot k = some (l, r)) (hc : r.cleanCount = 2) :
    s.claimOutcome k .clean = { s with
      lanes := s.lanes.set l none
      map := s.map.set r.slot (.mine r.stream 0 false)
      streams := s.streams.set r.stream (s.streams[r.stream].won r.slot)
      events := if s.streams[r.stream].held.length + 1 = s.streams[r.stream].wanted then
          enqueueEvent s.events { event := .streamLive r.stream r.slot, cycle := s.cycleNumber }
        else s.events } := by
  have hn : ¬ r.cleanCount + 1 < Config.probeCycles := by rw [hc]; decide
  have hq : (s.winSlot l r).streams[r.stream] =
      { s.streams[r.stream] with held := s.streams[r.stream].held ++ [r.slot], attempts := 0 } := by
    rw [State.winSlot, State.modStream_get, if_pos rfl]
    rfl
  simp only [State.claimOutcome, h, if_neg hn]
  unfold State.goLive
  rw [hq]
  by_cases hw : s.streams[r.stream].held.length + 1 = s.streams[r.stream].wanted
  · rw [if_pos (by simpa using hw), if_pos hw, Stream.won_last hw, State.modStream, hq]
    simp [State.winSlot, State.setLane, State.setEntry, State.post, State.cycleNumber]
  · rw [if_neg (by simpa using hw), if_neg hw, Stream.won_more hw]
    simp [State.winSlot, State.modStream, State.setLane, State.setEntry]

/-- The attempts and the backoff of the stream whose probe collided (R94). -/
theorem State.loseProbe_stream (s : State) (l : LaneNo) (r : Lane) :
    (s.loseProbe l r).streams[r.stream] = { s.streams[r.stream] with
      attempts := s.streams[r.stream].attempts + 1
      backoff := s.drawn (backoffRange (s.streams[r.stream].attempts + 1)) } := by
  rw [State.loseProbe, State.drawUsed_streams, State.modStream_get, if_pos rfl]
  rfl

theorem State.drawn_lt (s : State) {n : Nat} (h : 0 < n) : s.drawn n < n := Nat.mod_lt _ h

theorem State.claimOutcome_loses (h : s.laneOfSlot k = some (l, r)) (ha : s.streams[r.stream].attempts < 9) :
    s.claimOutcome k .collided = { s with
      lanes := s.lanes.set l none
      map := s.map.set r.slot (.held none 0)
      draws := s.draws + 1
      streams := s.streams.set r.stream { s.streams[r.stream] with
        attempts := s.streams[r.stream].attempts + 1
        backoff := s.drawn (backoffRange (s.streams[r.stream].attempts + 1)) } } := by
  have hn : (s.loseProbe l r).streams[r.stream].attempts < Config.attemptLimit := by
    rw [State.loseProbe_stream]
    exact Nat.add_lt_add_right ha 1
  simp only [State.claimOutcome, h, State.limitAttempts, if_pos hn]
  simp only [State.loseProbe, State.drawUsed, State.modStream, State.setEntry, State.setLane]

/-- A stream that is short posts STREAM_SHORT unless it has (R96). -/
theorem State.shortStream_eq (s : State) (i : StreamNo) (why : Reason) :
    s.shortStream i why = { s with
      streams := s.streams.set i { s.streams[i] with shortPosted := true }
      events := if s.streams[i].shortPosted = true then s.events
        else enqueueEvent s.events { event := .streamShort i why, cycle := s.cycleNumber } } := by
  unfold State.shortStream
  by_cases hp : s.streams[i].shortPosted = true
  · have hsame : { s.streams[i] with shortPosted := true } = s.streams[i] := by rw [← hp]
    rw [if_pos hp, if_pos hp, hsame]
    simp
  · rw [if_neg hp, if_neg hp]
    rfl

/-- The tenth collided probe in a row (R95): a stream without a slot fails, and another is short and tries anew. -/
theorem State.claimOutcome_tenth (h : s.laneOfSlot k = some (l, r)) (ha : s.streams[r.stream].attempts = 9) :
    s.claimOutcome k .collided = { s with
      lanes := s.lanes.set l none
      map := s.map.set r.slot (.held none 0)
      draws := s.draws + 1
      streams := s.streams.set r.stream
        (if s.streams[r.stream].held = [] then
          { s.streams[r.stream].clearClaim with state := .failed, failure := some .contention }
        else { s.streams[r.stream] with attempts := 0, backoff := s.drawn 32, shortPosted := true })
      events := if s.streams[r.stream].held = [] then
          enqueueEvent s.events { event := .streamFailed r.stream .contention, cycle := s.cycleNumber }
        else if s.streams[r.stream].shortPosted = true then s.events
        else enqueueEvent s.events { event := .streamShort r.stream .contention, cycle := s.cycleNumber } } := by
  have hr : backoffRange (s.streams[r.stream].attempts + 1) = 32 := by rw [ha]; rfl
  have hq := s.loseProbe_stream l r
  rw [hr] at hq
  have hn : ¬ (s.loseProbe l r).streams[r.stream].attempts < Config.attemptLimit := by
    rw [hq]
    exact Nat.not_lt.mpr (ha ▸ Nat.le_refl 10)
  simp only [State.claimOutcome, h, State.limitAttempts, if_neg hn]
  rw [hq]
  by_cases hh : s.streams[r.stream].held = []
  · rw [if_pos hh, if_pos hh, if_pos hh, State.failStream, State.modStream, hq]
    simp [State.loseProbe, State.drawUsed, State.modStream, State.setEntry, State.setLane, State.post,
      State.cycleNumber, Stream.clearClaim]
  · rw [if_neg hh, if_neg hh, if_neg hh, State.shortStream_eq, State.modStream, hq]
    simp [State.loseProbe, State.drawUsed, State.modStream, State.setEntry, State.setLane, State.cycleNumber]

end Probe

/-- A station in ACTIVE takes a CLAIM's outcome and goes on to the next boundary. -/
theorem exec_slotOccurrenceEnd_claim_active {s : State} {k : SlotNo} {t : Timeline} {x : Transmission}
    {f : SlotFrame} {collided : Bool}
    (due : Due s (.slotEnd k) t) (hx : s.tx = some x) (hs : x.stage ≠ .handedOver) (hf : x.frame = .slot f)
    (hm : f.mark = .claim) (hactive : s.station = .active)
    (hc : collided = true ↔ (x.stage = .jamming ∨ ∃ j ∈ s.reports.jams, t.slotOpens k ≤ j ∧ j ≤ t.slotCloses k)) :
    exec (.slotOccurrenceEnd k) s = .next
      { (s.slotClosed k collided).claimOutcome k (.ofCollided collided) with
        timeline := nextDue t (Boundary.afterSlot k) } := by
  have hv := (s.slotClosed k collided).claimOutcome_stationView k (.ofCollided collided)
  have ht := congrArg StationView.timeline hv
  have hst := congrArg StationView.station hv
  rw [exec_slotOccurrenceEnd_claim due hx hs hf hm hc, State.nextIs_eq (ht.trans due.2.2.1), State.checkLeft_stays]
  exact .inl fun hl => nomatch hactive.symm.trans (hst.symm.trans hl)

end Sys2Proof.Machine

namespace Sys2Proof.Proofs

open Sys2Proof.Machine Sys2Proof.Safety

/-- Settles O40: the lane that carries the slot counts, wins or loses. -/
theorem claimOutcomeMovesTheProbe : Obligations.ClaimOutcomeMovesTheProbe := by
  rintro s k t x f l r legal due hactive hx hstage hf hm hl rfl collided hc _ rfl
  have lane : (s.slotClosed r.slot collided).laneOfSlot r.slot = some (l, r) :=
    State.laneOfSlot_eq (s := s) legal.claims hl rfl
  have claiming : s.streams[r.stream].state = .claiming := (legal.claims.lanedClaims l r hl).1
  rw [exec_slotOccurrenceEnd_claim_active due hx hstage hf hm hactive hc]
  refine ⟨?_, ?_, ?_⟩
  · rintro rfl hclean
    rw [Outcome.ofCollided, if_neg (by decide), State.claimOutcome_counts lane hclean]
    simp only [State.slotClosed]
  · rintro rfl hclean
    rw [Outcome.ofCollided, if_neg (by decide), State.claimOutcome_wins lane hclean]
    simp only [State.slotClosed, State.cycleNumber, due.2.2.1, Stream.won, claiming]
    rfl
  · rintro rfl hattempts
    refine ⟨_, State.drawn_lt s (Nat.two_pow_pos _), ?_⟩
    rw [Outcome.ofCollided, if_pos rfl, State.claimOutcome_loses lane hattempts]
    simp only [State.slotClosed]
    rfl

/-- Settles O41: a busy lane makes the station ACTIVE; without a lane the claim engine changes nothing. -/
theorem attemptLimitAndDiscardedClaims : Obligations.AttemptLimitAndDiscardedClaims := by
  rintro s k t x f legal due hx hstage hf hm collided hc _ rfl
  refine ⟨?_, fun hnone => ?_⟩
  · rintro l r rfl hl rfl hattempts
    have lane : (s.slotClosed r.slot true).laneOfSlot r.slot = some (l, r) :=
      State.laneOfSlot_eq (s := s) legal.claims hl rfl
    have hactive : s.station = .active := by
      by_contra hne
      have hidle := (legal.claims.onlyActive hne).2
      rcases LaneNo.eq_zero_or_one l with rfl | rfl
      · cases hl.symm.trans hidle.1
      · cases hl.symm.trans hidle.2
    refine ⟨s.drawn 32, State.drawn_lt s (by decide), ?_⟩
    rw [exec_slotOccurrenceEnd_claim_active due hx hstage hf hm hactive hc, Outcome.ofCollided, if_pos rfl,
      State.claimOutcome_tenth lane hattempts]
    simp only [State.slotClosed, State.cycleNumber, due.2.2.1, Stream.clearClaim]
    rfl
  · have unawaited : (s.slotClosed k collided).laneOfSlot k = none := State.laneOfSlot_none hnone
    rw [exec_slotOccurrenceEnd_claim due hx hstage hf hm hc, State.claimOutcome_discarded unawaited,
      State.nextIs_eq (s := s.slotClosed k collided) due.2.2.1]
    exact ⟨fun h => congrArg _ (State.checkLeft_stays h), fun hl h => ⟨_, rfl, State.checkLeft_arrives hl h⟩⟩

end Sys2Proof.Proofs
end

section
/-! PROOF. Frames as they are sent and received, and their levels on the line: O51. -/

namespace Sys2Proof.Machine

/-! ## The check word (R175) -/

@[simp] theorem length_halfBytes (h : Half) : (halfBytes h).length = 2 := rfl

theorem length_withCheck (bytes : List Byte) : (withCheck bytes).length = bytes.length + 2 := by
  simp [withCheck]

/-- The check word that is appended verifies. -/
theorem checkVerifies_withCheck {n : Nat} {bytes : List Byte} (h : bytes.length = n) :
    checkVerifies n (withCheck bytes) = true := by
  subst h
  simp [checkVerifies, withCheck]

/-- A field byte stands in its place before the check word. -/
theorem byteAt_withCheck {bytes : List Byte} {n : Nat} (h : n < bytes.length) :
    byteAt (withCheck bytes) n = bytes[n] := by
  rw [byteAt, withCheck, List.getD_eq_getElem?_getD, List.getElem?_append_left h]
  simp [h]

/-! ## Slot frames (R4) -/

theorem Mark.ofCode_code (m : Mark) : Mark.ofCode m.code = some m := by cases m <;> rfl

theorem SlotFrame.length_fields (f : SlotFrame) : f.fields.length = 27 := by simp [SlotFrame.fields]

theorem SlotFrame.byteAt_payload (f : SlotFrame) (i : Fin 24) :
    byteAt (withCheck f.fields) (3 + i.val) = f.payload[i] := by
  rw [byteAt_withCheck (by rw [f.length_fields]; omega)]
  simp [SlotFrame.fields, Nat.add_comm 3]

theorem SlotFrame.parse_withCheck {f : SlotFrame} (h : f.owner ≠ 0) :
    SlotFrame.parse (withCheck f.fields) = some f := by
  have hlen := f.length_fields
  have hcheck : checkVerifies FrameKind.slot.fieldBytes (withCheck f.fields) = true := checkVerifies_withCheck hlen
  have h0 : byteAt (withCheck f.fields) 0 = f.mark.code ++ f.owner := rfl
  have h1 : byteAt (withCheck f.fields) 1 = f.tag := rfl
  have h2 : byteAt (withCheck f.fields) 2 = f.sequence := rfl
  have hmark : (f.mark.code ++ f.owner : Byte).extractLsb' 5 3 = f.mark.code := BitVec.extractLsb'_append_eq_left
  have howner : (f.mark.code ++ f.owner : Byte).extractLsb' 0 5 = f.owner := BitVec.extractLsb'_append_eq_right
  have hpayload : (Vector.ofFn fun i : Fin 24 => byteAt (withCheck f.fields) (3 + i.val)) = f.payload := by
    refine Vector.ext fun i hi => ?_
    rw [Vector.getElem_ofFn]
    exact f.byteAt_payload ⟨i, hi⟩
  rw [SlotFrame.parse, if_pos hcheck, h0, hmark, Mark.ofCode_code, howner]
  exact (if_neg h).trans (by rw [h1, h2, hpayload])

/-! ## Beacon frames (R5) -/

theorem BeaconFrame.length_fields (b : BeaconFrame) : b.fields.length = 10 := rfl

theorem getMsbD_summaryByte (flags : SlotFlags) (first j : Nat) (h : j < 8) :
    (summaryByte flags first).getMsbD j = slotFlag flags (first + j) := by
  rw [summaryByte, BitVec.getMsbD_ofBoolListBE]
  interval_cases j <;> rfl

theorem BeaconFrame.byteAt_summary (b : BeaconFrame) (m : Nat) (h : m < 6) :
    byteAt (withCheck b.fields) (4 + m) = summaryByte b.occupancy (8 * m) := by
  interval_cases m <;> rfl

/-- The occupancy summary gives back its flags, the lowest slot in the first byte's bit 7 (R175). -/
theorem BeaconFrame.occupancy_received (b : BeaconFrame) :
    (Vector.ofFn fun k : Fin 48 => (byteAt (withCheck b.fields) (4 + k.val / 8)).getMsbD (k.val % 8)) =
      b.occupancy := by
  ext k hk
  rw [Vector.getElem_ofFn, b.byteAt_summary (k / 8) (by omega), getMsbD_summaryByte _ _ _ (by omega),
    Nat.div_add_mod, slotFlag, dif_pos hk]

theorem BeaconFrame.parse_withCheck {b : BeaconFrame} (hs : b.sender ≠ 0) (hf : b.founder ≠ 0) :
    BeaconFrame.parse (withCheck b.fields) = some b := by
  have hcheck : checkVerifies FrameKind.beacon.fieldBytes (withCheck b.fields) = true :=
    checkVerifies_withCheck b.length_fields
  have h0 : byteAt (withCheck b.fields) 0 = b.sender ++ BitVec.ofNat 3 b.position.val := rfl
  have h1 : byteAt (withCheck b.fields) 1 = b.founder ++ 0#3 := rfl
  have h23 : byteAt (withCheck b.fields) 2 ++ byteAt (withCheck b.fields) 3 = b.cycle :=
    (BitVec.extractLsb'_append_extractLsb'_eq_extractLsb' rfl).trans BitVec.extractLsb'_eq_self
  have hsender : (b.sender ++ BitVec.ofNat 3 b.position.val : Byte).extractLsb' 3 5 = b.sender :=
    BitVec.extractLsb'_append_eq_left
  have hposition : ((b.sender ++ BitVec.ofNat 3 b.position.val : Byte).extractLsb' 0 3).toFin = b.position := by
    rw [BitVec.extractLsb'_append_eq_right]
    exact Fin.ext (Nat.mod_eq_of_lt b.position.isLt)
  have hfounder : (b.founder ++ 0#3 : Byte).extractLsb' 3 5 = b.founder := BitVec.extractLsb'_append_eq_left
  rw [BeaconFrame.parse, if_pos hcheck, h0, h1, h23, hsender, hposition, hfounder]
  exact (if_neg (not_or_intro hs hf)).trans (by rw [b.occupancy_received])

/-! ## Start patterns (R174) -/

theorem Frame.wire_slot (f : SlotFrame) : (Frame.slot f).wire = 0xAA :: 0x5C :: withCheck f.fields :=
  have h : halfBytes FrameKind.slot.startPattern = [0xAA, 0x5C] := by decide
  congrArg (· ++ withCheck f.fields) h

theorem Frame.wire_beacon (b : BeaconFrame) : (Frame.beacon b).wire = 0xAA :: 0x3A :: withCheck b.fields :=
  have h : halfBytes FrameKind.beacon.startPattern = [0xAA, 0x3A] := by decide
  congrArg (· ++ withCheck b.fields) h

/-! ## Levels on the line (R174) -/

/-- Where lists of one length are put together, each element stands in its list's place. -/
theorem getElem?_flatMap_uniform {α β : Type} {g : α → List β} {n j : Nat} (h : ∀ a, (g a).length = n) (hj : j < n)
    (l : List α) (m : Nat) : (l.flatMap g)[n * m + j]? = l[m]?.bind fun a => (g a)[j]? := by
  induction l generalizing m with
  | nil => simp
  | cons a l ih =>
    rw [List.flatMap_cons]
    cases m with
    | zero => simp [List.getElem?_append, h, hj]
    | succ m =>
      have hm : n * (m + 1) + j = n * m + j + n := by ring
      rw [List.getElem?_append_right (by rw [h]; omega), h, hm, Nat.add_sub_cancel, ih]
      simp

/-- The bits of a frame in the order in which they are sent (R175). -/
def Frame.bits (f : Frame) : List Bool := f.wire.flatMap byteBits

theorem length_byteBits (b : Byte) : (byteBits b).length = 8 := rfl

theorem getElem?_byteBits (b : Byte) {j : Nat} (h : j < 8) : (byteBits b)[j]? = some (b.getMsbD j) := by
  interval_cases j <;> simp [byteBits, BitVec.getMsbD]

theorem Frame.levels_eq (f : Frame) : f.levels = f.bits.flatMap bitLevels := by
  rw [Frame.levels, Frame.bits, List.flatMap_assoc]
  rfl

theorem Frame.length_bits (f : Frame) : f.bits.length = 8 * f.wire.length := by
  simp [Frame.bits, List.length_flatMap, length_byteBits, Nat.mul_comm]

theorem Frame.length_levels (f : Frame) : f.levels.length = 2 * f.bits.length := by
  simp [Frame.levels_eq, List.length_flatMap, bitLevels, Nat.mul_comm]

/-- Each bit is its level in the first half of its bit time, and the opposite in the second (R174). -/
theorem Frame.levels_first (f : Frame) (q : Nat) : f.levels[2 * q]? = f.bits[q]? := by
  have h := getElem?_flatMap_uniform (g := bitLevels) (n := 2) (j := 0) (fun _ => rfl) (by decide) f.bits q
  rw [f.levels_eq]
  exact h.trans (by simp [bitLevels])

theorem Frame.levels_second (f : Frame) (q : Nat) : f.levels[2 * q + 1]? = f.bits[q]?.map (!·) := by
  have h := getElem?_flatMap_uniform (g := bitLevels) (n := 2) (j := 1) (fun _ => rfl) (by decide) f.bits q
  rw [f.levels_eq, h]
  cases f.bits[q]? <;> rfl

theorem Frame.bits_of_byte {f : Frame} {m j : Nat} {b : Byte} (hb : f.wire[m]? = some b) (hj : j < 8) :
    f.bits[8 * m + j]? = some (b.getMsbD j) := by
  rw [Frame.bits, getElem?_flatMap_uniform length_byteBits hj, hb]
  exact getElem?_byteBits b hj

/-- The two halves of one bit differ. -/
theorem Frame.levels_differ (f : Frame) (q : Nat) (v : Bool) :
    ¬ (f.levels[2 * q]? = some v ∧ f.levels[2 * q + 1]? = some v) := by
  rintro ⟨h1, h2⟩
  rw [f.levels_first] at h1
  rw [f.levels_second, h1] at h2
  cases v <;> cases h2

end Sys2Proof.Machine

namespace Sys2Proof.Proofs

open Sys2Proof.Machine

/-- Settles O51: each kind by its fields' round trip, and the levels by the two halves of a bit. -/
theorem frameReceivedAsSent : Obligations.FrameReceivedAsSent := by
  refine ⟨fun f ho => ⟨withCheck f.fields, Frame.wire_slot f, ?_, ?_⟩,
    fun b hs hf => ⟨withCheck b.fields, Frame.wire_beacon b, ?_, ?_⟩,
    fun f => ⟨?_, fun m j b hb hj => ⟨?_, ?_⟩, fun n v h => ?_⟩⟩
  · rw [length_withCheck, f.length_fields]
  · change (SlotFrame.parse (withCheck f.fields)).map Frame.slot = _
    rw [SlotFrame.parse_withCheck ho]
    rfl
  · rw [length_withCheck, b.length_fields]
  · change (BeaconFrame.parse (withCheck b.fields)).map Frame.beacon = _
    rw [BeaconFrame.parse_withCheck hs hf]
    rfl
  · rw [f.length_levels, f.length_bits]
    omega
  · have hi : 16 * m + 2 * j = 2 * (8 * m + j) := by omega
    rw [hi, f.levels_first, Frame.bits_of_byte hb hj]
  · have hi : 16 * m + 2 * j + 1 = 2 * (8 * m + j) + 1 := by omega
    rw [hi, f.levels_second, Frame.bits_of_byte hb hj]
    rfl
  · obtain ⟨h0, h1, h2⟩ := h
    obtain ⟨q, rfl | rfl⟩ := n.even_or_odd'
    · exact f.levels_differ q v ⟨h0, h1⟩
    · exact f.levels_differ (q + 1) v ⟨h1, h2⟩

end Sys2Proof.Proofs
end

section
/-! PROOF. The queue of commands, the device reset, configuration, START and the snapshot reads: O1 to O8 and O20. -/

namespace Sys2Proof.Machine

open Sys2Proof.Safety

/-! ## Requests as they are answered (R163) -/

/-- A request that the link awaits leaves the reply of its service in the transaction record. -/
theorem State.request_answers {s : State} {code : Byte} {args : List Byte} (h : Takes s code args)
    (serve : State → Reply × State) :
    s.request code args serve =
      answer (serve s).2 code (serve s).1.status (serve s).1.response (serve s).1.commit :=
  State.request_taken h.1 h.2

/-- A request whose service is known answers with it. -/
theorem State.request_replies {s u : State} {code : Byte} {args : List Byte} {serve : State → Reply × State}
    {status : Status} {response : List Byte} {commit : Option CommitTarget} (h : Takes s code args)
    (hs : serve s = ({ status := status, response := response, commit := commit }, u)) :
    Host.Outcome.next (φ := Fault) (ρ := Refusal) (s.request code args serve) =
      .next (answer u code status response commit) := by
  rw [State.request_answers h, hs]

/-! ## Arguments as numbers (R176) -/

theorem streamArg_of_lt {b : Byte} {i : StreamNo} (h : b.toNat = i.val) : streamArg b = some i := by
  simp [streamArg, h]

theorem streamArg_of_ge {b : Byte} (h : 8 ≤ b.toNat) : streamArg b = none := dif_neg (Nat.not_lt.mpr h)

theorem entryArg_of_lt {b : Byte} {e : EntryNo} (h : b.toNat = e.val) : entryArg b = some e := by
  simp [entryArg, h]

theorem entryArg_of_ge {b : Byte} (h : 16 ≤ b.toNat) : entryArg b = none := dif_neg (Nat.not_lt.mpr h)

theorem slotArg_of_lt {b : Byte} {k : SlotNo} (h : b.toNat = k.val) : slotArg b = some k := by
  simp [slotArg, h]

theorem slotArg_of_ge {b : Byte} (h : 48 ≤ b.toNat) : slotArg b = none := dif_neg (Nat.not_lt.mpr h)

/-! ## CONFIGURE and START (R22, R24, R25) -/

theorem configurationOf_accepts {address : Byte} {seed : Half} {founder beacon : Bool} (h1 : 1 ≤ address.toNat)
    (h31 : address.toNat ≤ 31) (hseed : seed ≠ 0) (hf : founder = true → beacon = true) :
    configurationOf address seed founder beacon = some
      { address := address.setWidth 5, seed := seed, founderEligible := founder, beaconEligible := beacon } := by
  have hn : ¬ (seed = 0 ∨ founder = true ∧ beacon = false) := by
    rintro (h | ⟨h, hb⟩)
    · exact hseed h
    · exact nomatch (hf h).symm.trans hb
  simp only [configurationOf, addressArg, if_pos (And.intro h1 h31), if_neg hn]

theorem configurationOf_refuses {address : Byte} {seed : Half} {founder beacon : Bool}
    (h : address.toNat = 0 ∨ 31 < address.toNat ∨ seed = 0 ∨ (founder = true ∧ beacon = false)) :
    configurationOf address seed founder beacon = none := by
  by_cases ha : 1 ≤ address.toNat ∧ address.toNat ≤ 31
  · have hn : seed = 0 ∨ founder = true ∧ beacon = false := by
      rcases h with h | h | h
      · omega
      · omega
      · exact h
    simp only [configurationOf, addressArg, if_pos ha, if_pos hn]
  · simp only [configurationOf, addressArg, if_neg ha]

/-- A wait is 3000 µs and 0 to 7 times 1000 µs, held at once where carrier is present (R25). -/
theorem State.startTimer_eq (s : State) :
    ∃ d : Nat, d ≤ 7 ∧ s.startTimer = { s with
      draws := s.draws + 1
      listenTimer := if s.carrier.isSome then .held (3000 + 1000 * d) else .counting (3000 + 1000 * d) } :=
  ⟨s.drawn 8, Nat.lt_succ_iff.mp (Nat.mod_lt _ (by decide)), rfl⟩

/-! ## Commands while the reset input is held (R168) -/

theorem State.unlessHeld_held {s : State} (h : s.resetHeld = true) (f : State → State) : s.unlessHeld f = s := by
  simp [State.unlessHeld, h]

theorem State.request_held {s : State} (h : s.resetHeld = true) (code : Byte) (args : List Byte)
    (serve : State → Reply × State) : s.request code args serve = s := State.unlessHeld_held h _

theorem State.atEvent_held {s : State} (h : s.resetHeld = true) (b : Boundary) (f : Timeline → State → State) :
    s.atEvent b f = s := State.unlessHeld_held h _

/-- In UNCONFIGURED a carrier report moves the level of the pair alone. -/
theorem execCarrier_unconfigured {s t : State} (h : s.station = .unconfigured) {time : Time}
    (he : execCarrierStart time s = .next t ∨ execCarrierEnd time s = .next t) : t = { s with carrier := t.carrier } := by
  rcases he with he | he <;> cases he
  · split
    · rfl
    · rw [if_neg (by simp [h])]
  · split
    · rfl
    · rw [if_neg (by simp [h]), if_neg (by simp [h, StationState.onTimeline])]

/-- Select moves its level alone while the reset input is held (R168). -/
theorem execSelect_held {s t : State} (h : s.resetHeld = true)
    (he : execTransactionBegin s = .next t ∨ execTransactionEnd s = .next t) :
    t = { s with selectLow := t.selectLow } := by
  rcases he with he | he <;> cases he
  · split
    · rfl
    · rw [if_neg (by simp [h])]
  · split <;> rfl

end Sys2Proof.Machine

namespace Sys2Proof.Proofs

open Sys2Proof.Machine Sys2Proof.Safety

/-- Settles O1, by the queue and then by the timer. -/
theorem stepRunsFrontCommand : Obligations.StepRunsFrontCommand := by
  refine ⟨fun c rest s h => by simp only [step, h], fun s h => ⟨fun n hn => ?_, fun hn => ?_⟩⟩
  · simp only [step, h, State.idle, hn, ListenTimer.tick]
  · have ht : s.listenTimer.tick = s.listenTimer := by
      cases hm : s.listenTimer with
      | counting n => exact absurd hm (hn n)
      | held n => rfl
      | stopped => rfl
    simp only [step, h, State.idle, ht]
    rw [← h]

/-- Settles O2, table by table. -/
theorem resetLeavesTheseValues : Obligations.ResetLeavesTheseValues := by
  refine ⟨rfl, rfl, rfl, rfl, rfl, rfl, rfl, rfl, rfl, rfl, fun k => ⟨?_, ?_⟩, rfl, rfl, rfl, fun k => ?_, rfl,
    fun l => ?_, fun i => ?_, rfl, fun e => ?_, ?_, fun b => ?_, rfl, rfl⟩
  · exact Vector.getElem_replicate k.isLt
  · exact Vector.getElem_replicate k.isLt
  · exact Vector.getElem_replicate k.isLt
  · exact Vector.getElem_replicate l.isLt
  · exact Vector.getElem_replicate i.isLt
  · exact Vector.getElem_replicate e.isLt
  · exact List.length_finRange (n := Config.poolBuffers)
  · exact List.mem_finRange (n := Config.poolBuffers) b

/-- Settles O3: the state is written out, so its laws are decided. -/
theorem resetStateIsLegal : Obligations.ResetStateIsLegal := legal_of_check (by decide +kernel)

/-- Settles O4, by the level of the reset input. -/
theorem deviceResetFromRequestAndInput : Obligations.DeviceResetFromRequestAndInput := by
  intro s
  refine ⟨fun ⟨held, awaits⟩ => ?_, fun held => ?_, fun held => ⟨?_, ?_⟩, fun held => ?_⟩
  · refine congrArg Host.Outcome.next ((State.unlessHeld_released held _).trans ((if_pos awaits).trans ?_))
    rw [State.deviceReset, held]
  · exact congrArg Host.Outcome.next (if_neg (by simp [held]))
  · exact congrArg Host.Outcome.next (if_pos held)
  · exact congrArg Host.Outcome.next (if_pos held)
  · exact congrArg Host.Outcome.next (if_neg (by simp [held]))

/-- Settles O5: every command but the release of the input is under the guard of the input, or moves a level. -/
theorem heldResetKeepsEveryBlock : Obligations.HeldResetKeepsEveryBlock := by
  intro c s t held legal hc h
  have same {f : State} (he : Host.Outcome.next (φ := Fault) (ρ := Refusal) f = .next t) (hf : f = s) :
      t = { s with selectLow := t.selectLow, carrier := t.carrier } := by
    cases he
    rw [hf]
  have unconfigured := (legal.heldQuiet held).1
  cases c with
  | resetInputReleased => exact absurd rfl hc
  | resetInputAsserted => exact same h (if_pos held)
  | transactionBegin =>
    rw [execSelect_held held (.inl h)]
  | transactionEnd =>
    rw [execSelect_held held (.inr h)]
  | carrierStart time =>
    rw [execCarrier_unconfigured unconfigured (.inl h)]
  | carrierEnd time =>
    rw [execCarrier_unconfigured unconfigured (.inr h)]
  | unknownCode code =>
    refine same h ?_
    split
    · exact State.request_held held ..
    · rfl
  | reset | leadIn | frameReport | jamReport | readBackMismatch | listenTimerExpiry | consumingReadCommit
  | byteComplete => exact same h (State.unlessHeld_held held _)
  | cycleStart | beaconPosition | beaconPositionClose | slotPhaseStart | slotOccurrenceBegin | slotOccurrenceEnd
  | cycleEnd => exact same h (State.atEvent_held held ..)
  | configure | start | stop | openTx | closeTx | push | subscribe | unsubscribe | pop | readEvent | readStation
  | readStream | readSub | readSlot => exact same h (State.request_held held ..)

/-- Settles O6, by the station state and the checks on the arguments. -/
theorem configureStoresOrRefuses : Obligations.ConfigureStoresOrRefuses := by
  intro s address seed founder beacon takes
  refine ⟨fun hu ht h1 h31 hseed hf => ?_, fun hu h => ?_, fun hu => ?_⟩
  · refine State.request_replies takes ?_
    simp only [State.configure, if_pos hu, configurationOf_accepts h1 h31 hseed hf, State.enter, State.post,
      State.cycleNumber, ht]
    rfl
  · refine State.request_replies takes ?_
    simp only [State.configure, if_pos hu, configurationOf_refuses h]
    rfl
  · exact State.request_replies takes (if_neg hu)

/-- Settles O7, by the station state and the carrier. -/
theorem startAndStopOffTheBus : Obligations.StartAndStopOffTheBus := by
  intro s
  refine ⟨fun takes hs => ?_, fun takes hs => ?_, fun takes hs ht => ?_, fun takes hs => ?_⟩
  · exact State.request_replies takes (by simp only [State.stopRequest, hs]; rfl)
  · exact State.request_replies takes (by simp only [State.stopRequest, hs]; rfl)
  · obtain ⟨d, hd, htimer⟩ := s.switchOnReceiver.startTimer_eq
    have hserve : s.startRequest = (s.switchOnReceiver.startTimer.enter .listen .start).accept := if_pos hs
    rw [htimer] at hserve
    rcases s.switchOnReceiver_cases with ⟨hc, hr⟩ | ⟨since, m, hc, hm, hr⟩ <;> rw [hr] at hserve
    · refine ⟨fun _ => ⟨d, hd, State.request_replies takes (hserve.trans ?_)⟩, fun _ h => nomatch hc.symm.trans h⟩
      simp [State.enter, State.post, State.cycleNumber, ht, hc, State.accept, Reply.bare]
    · refine ⟨fun h => (nomatch hc.symm.trans h), fun since' h => ?_⟩
      obtain rfl : since = since' := Option.some.inj (hc.symm.trans h)
      refine ⟨d, m, hd, hm, State.request_replies takes (hserve.trans ?_)⟩
      simp [State.enter, State.post, State.cycleNumber, ht, hc, State.accept, Reply.bare]
  · exact State.request_replies takes (if_neg hs)

/-- Settles O8: the requests look at the station state first, and the streams close by law. -/
theorem leavingTakesNoNewWork : Obligations.LeavingTakesNoNewWork := by
  intro s hs
  refine ⟨fun takes => ?_, fun legal i => ((legal.each i).leavingCloses hs).symm, fun stream tag wanted takes => ?_,
    fun entry source tag takes => ?_⟩
  · exact State.request_replies takes (by simp only [State.stopRequest, hs]; rfl)
  · exact State.request_replies takes (if_pos (.inr hs))
  · exact State.request_replies takes (if_pos (.inr hs))

/-- Settles O20, read by read. -/
theorem readsAnswerAndChangeNothing : Obligations.ReadsAnswerAndChangeNothing := by
  intro s
  refine ⟨fun takes => State.request_replies takes rfl, fun b takes => ⟨fun hb => ?_, fun i hi => ?_⟩,
    fun b takes => ⟨fun hb => ?_, fun e he => ?_⟩,
    fun b takes => ⟨fun hb => ?_, fun k hk => ?_, fun l i r hl => ?_⟩⟩
  · exact State.request_replies takes (by simp only [State.readStream, streamArg_of_ge hb]; rfl)
  · refine State.request_replies takes ?_
    have ht : s.inTransitOf i = (s.inTransit.map (·.stream) == some i) := by
      cases h : s.inTransit <;> simp [State.inTransitOf, h]
    simp only [State.readStream, streamArg_of_lt hi, ht]
    rfl
  · exact State.request_replies takes (by simp only [State.readSub, entryArg_of_ge hb]; rfl)
  · exact State.request_replies takes (by simp only [State.readSub, entryArg_of_lt he]; rfl)
  · exact State.request_replies takes (by simp only [State.readSlot, slotArg_of_ge hb]; rfl)
  · exact State.request_replies takes (by simp only [State.readSlot, slotArg_of_lt hk]; rfl)
  · simp only [State.cleanCountOf, hl]
    rfl

end Sys2Proof.Proofs
end

section
/-! PROOF. The cycle end: quiet counting, the holdover and settle counts and the loss of synchronization: O42 to O44. -/

namespace Sys2Proof.Machine

open Sys2Proof.Safety

/-! ## Events posted one after another (R155) -/

theorem State.postAll_eventsAfter (s : State) (es : List Event) :
    s.postAll es = { s with events := eventsAfter s.events es s.cycleNumber } := s.postAll_eq es

theorem eventsAfter_append (q : List EventRecord) (es fs : List Event) (cycle : Option Half) :
    eventsAfter q (es ++ fs) cycle = eventsAfter (eventsAfter q es cycle) fs cycle := List.foldl_append

/-- An event under a condition is a list of one event or of none. -/
theorem eventsAfter_ite (q : List EventRecord) (p : Prop) [Decidable p] (e : Event) (cycle : Option Half) :
    eventsAfter q (if p then [e] else []) cycle = if p then enqueueEvent q { event := e, cycle := cycle } else q := by
  split <;> rfl

/-! ## Quiet counting (R136) -/

/-- A subscription record after a cycle end's quiet counting (R136). -/
def Subscription.quieted (r : Subscription) : Subscription :=
  if r.state = .active ∧ r.presence = false then
    if r.quietCount < 5 then { r with quietCount := r.quietCount + 1 } else { r with state := .stale, quietCount := 0 }
  else { r with quietCount := 0, presence := false }

/-- The sixth quiet cycle in a row makes the entry STALE (R136). -/
def Subscription.goesStale (r : Subscription) : Bool :=
  r.state == .active && !r.presence && decide (5 ≤ r.quietCount)

theorem Subscription.goesStale_iff (r : Subscription) :
    r.goesStale = true ↔ (r.state = .active ∧ r.presence = false) ∧ ¬ r.quietCount < 5 := by
  simp [Subscription.goesStale]

theorem State.countQuiet_eq (s : State) (e : EntryNo) :
    s.countQuiet e = { s with
      subs := s.subs.set e s.subs[e].quieted
      events := eventsAfter s.events (if s.subs[e].goesStale then [.subStale e] else []) s.cycleNumber } := by
  unfold State.countQuiet Subscription.quieted
  rw [eventsAfter_ite]
  simp only [Subscription.goesStale_iff]
  by_cases hq : s.subs[e].state = .active ∧ s.subs[e].presence = false
  · by_cases hn : s.subs[e].quietCount < 5
    · have hl : s.subs[e].quietCount + 1 < Config.lease := Nat.succ_lt_succ hn
      rw [if_pos hq, if_pos hl, if_pos hq, if_pos hn, if_neg (fun h => h.2 hn)]
      rfl
    · have hl : ¬ s.subs[e].quietCount + 1 < Config.lease := fun h => hn (Nat.lt_of_succ_lt_succ h)
      rw [if_pos hq, if_neg hl, if_pos hq, if_neg hn, if_pos ⟨hq, hn⟩]
      rfl
  · rw [if_neg hq, if_neg hq, if_neg (fun h => hq h.1)]
    rfl

/-- Counting in some entries: each is counted once, and the events come in the order of the list. -/
theorem State.foldl_countQuiet (es : List EntryNo) (once : es.Nodup) (s : State) :
    es.foldl State.countQuiet s = { s with
      subs := Vector.ofFn fun e => if e ∈ es then s.subs[e].quieted else s.subs[e]
      events := eventsAfter s.events ((es.filter fun e => s.subs[e].goesStale).map .subStale) s.cycleNumber } := by
  induction es generalizing s with
  | nil =>
    simp [eventsAfter]
  | cons d es ih =>
    obtain ⟨hd, hes⟩ := List.nodup_cons.mp once
    have row (e : EntryNo) : (s.countQuiet d).subs[e] = if d = e then s.subs[d].quieted else s.subs[e] := by
      rw [State.countQuiet_eq]
      exact State.modSub_get s d e Subscription.quieted
    have later : (es.filter fun e => (s.countQuiet d).subs[e].goesStale) = es.filter fun e => s.subs[e].goesStale :=
      List.filter_congr fun e he => by
        rw [row, if_neg (fun h : d = e => hd (h ▸ he))]
    have hsubs : (Vector.ofFn fun e : EntryNo => if e ∈ es then (s.countQuiet d).subs[e].quieted
        else (s.countQuiet d).subs[e]) =
        Vector.ofFn fun e : EntryNo => if e ∈ d :: es then s.subs[e].quieted else s.subs[e] := by
      refine congrArg Vector.ofFn (funext fun e => ?_)
      rw [row]
      by_cases he : d = e
      · subst he; simp [hd]
      · simp [he, Ne.symm he]
    have events : eventsAfter s.events (((d :: es).filter fun e => s.subs[e].goesStale).map .subStale) s.cycleNumber =
        eventsAfter (eventsAfter s.events (if s.subs[d].goesStale then [.subStale d] else []) s.cycleNumber)
          ((es.filter fun e => s.subs[e].goesStale).map .subStale) s.cycleNumber := by
      rw [← eventsAfter_append, List.filter_cons]
      cases s.subs[d].goesStale <;> rfl
    rw [events, List.foldl_cons, ih hes, later, hsubs, State.countQuiet_eq]
    rfl

/-- The SUB_STALE events of a cycle end, by ascending entry number (R136). -/
def State.staleEvents (s : State) : List Event := (allEntries.filter fun e => s.subs[e].goesStale).map .subStale

theorem State.receiveCycleEnd_eq (s : State) (on : s.station.onTimeline = true) :
    s.receiveCycleEnd = { s with
      subs := Vector.ofFn fun e => s.subs[e].quieted
      events := eventsAfter s.events s.staleEvents s.cycleNumber } := by
  rw [State.receiveCycleEnd, if_pos on]
  refine (State.foldl_countQuiet allEntries (List.nodup_finRange 16) s).trans ?_
  simp [allEntries, State.staleEvents]

theorem State.receiveCycleEnd_off (s : State) (off : s.station.onTimeline = false) : s.receiveCycleEnd = s := by
  rw [State.receiveCycleEnd, if_neg (by simp [off])]

/-! ## The holdover and settle counts (R29, R30) -/

/-- The holdover count after the end of a cycle that does not lose synchronization (R30). -/
def State.heldOver (s : State) : Nat := if s.beaconHeard = true then s.holdover else s.holdover + 1

theorem State.countHoldover_counts {s : State} (h : s.beaconHeard = true ∨ s.holdover < 7) :
    s.countHoldover = { s with holdover := s.heldOver }.countSettle := by
  unfold State.countHoldover State.heldOver
  by_cases hb : s.beaconHeard = true
  · rw [if_pos hb, if_pos hb]
  · have hn : s.holdover + 1 < Config.holdoverLimit := Nat.succ_lt_succ (h.resolve_left hb)
    rw [if_neg hb, if_pos hn, if_neg hb]

theorem State.countSettle_falls {s : State} (h : s.station = .settle → 1 < s.settle) :
    s.countSettle = { s with settle := if s.station = .settle then s.settle - 1 else s.settle } := by
  unfold State.countSettle
  split
  · rw [if_pos (h ‹_›)]
  · rfl

theorem State.countSettle_ends {s : State} (hs : s.station = .settle) (h1 : s.settle = 1) :
    s.countSettle = { s with settle := 0 }.enter .active .settled := by
  rw [State.countSettle, if_pos hs, if_neg (by omega)]

/-! ## The timeline drop (R38) -/

theorem State.settleTransit_none {s : State} (h : s.inTransit = none) : s.settleTransit = s := by
  simp only [State.settleTransit, h]

theorem Stream.drop_eq (r : Stream) :
    r.drop = match r.state with
      | .claiming | .live =>
        { r with state := .claiming, held := [], attempts := 0, backoff := 0, deferral := 0, shortPosted := false }
      | .closing => { r with state := .idle, held := [] }
      | .idle | .failed => r := by
  unfold Stream.drop
  cases r.state <;> rfl

theorem Subscription.rewait_rewait (r : Subscription) : r.rewait.rewait = r.rewait := by
  by_cases h : r.state = .idle <;> simp [Subscription.rewait_eq, h]

/-- Quiet counting is undone by a new wait, in an entry that is idle by law or used. -/
theorem Subscription.rewait_quieted {r : Subscription} (h : r.state = .idle → r.quietCount = 0 ∧ r.presence = false) :
    r.quieted.rewait = r.rewait := by
  by_cases hi : r.state = .idle
  · have hr : r.quieted = r := by
      obtain ⟨hq, hp⟩ := h hi
      rw [Subscription.quieted, if_neg (by simp [hi]), ← hq, ← hp]
    rw [hr]
  · have hq : r.quieted.state ≠ .idle := by
      unfold Subscription.quieted
      split
      · split <;> simp_all
      · exact hi
    rw [Subscription.rewait_eq, Subscription.rewait_eq, if_neg hi, if_neg hq]
    unfold Subscription.quieted
    split
    · split <;> rfl
    · rfl

/-- What a timeline drop leaves (R38), where no block is in transit. -/
theorem State.timelineDrop_eq {s : State} (h : s.inTransit = none) :
    s.timelineDrop = { s with
      claimQueue := [], lanes := Vector.replicate 2 none, map := Vector.ofFn fun _ => .unknown 0
      streams := Vector.ofFn fun i => s.streams[i].drop, subs := Vector.ofFn fun e => s.subs[e].rewait, tx := none } := by
  simp only [State.timelineDrop, State.settleTransit_none h, State.emptyClaims, State.clearMap, State.mapEntries,
    State.mapStreams, State.mapSubs]

/-- A loss of synchronization in SETTLE or ACTIVE, field by field (R31). -/
theorem State.loseSync_eq {s : State} {t : Timeline} (ht : s.timeline = some t) (h : s.inTransit = none) :
    ∃ d : Nat, d ≤ 7 ∧ s.loseSync = { s with
      station := .listen, timeline := none, holdover := 0, settle := 0, drawnPosition := none, beaconHeard := false
      tx := none, reports := Reports.empty, claimQueue := [], lanes := Vector.replicate 2 none
      map := Vector.ofFn fun _ => .unknown 0, streams := Vector.ofFn fun i => s.streams[i].drop
      subs := Vector.ofFn fun e => s.subs[e].rewait, receiver := .restarted t.ends, draws := s.draws + 1
      listenTimer := if s.carrier.isSome then .held (3000 + 1000 * d) else .counting (3000 + 1000 * d)
      events := eventsAfter s.events (.stationState .listen .holdover :: s.closingStreams.map .streamClosed) none } := by
  have hd := State.timelineDrop_eq (s := s.abandonFrame) (by rw [State.abandonFrame_eq s t ht]; exact h)
  obtain ⟨d, hd7, htimer⟩ := s.abandonFrame.timelineDrop.leaveTimeline.startTimer_eq
  refine ⟨d, hd7, ?_⟩
  rw [State.loseSync, htimer, hd, State.abandonFrame_eq s t ht, State.postAll_eventsAfter]
  rfl

/-- An arrival in READY, field by field (R39). -/
theorem State.arriveReady_eq (s : State) (cause : Cause) :
    s.arriveReady cause = { s with
      station := .ready, timeline := none, holdover := 0, settle := 0, listenTimer := .stopped, sessionFlag := false
      drawnPosition := none, beaconHeard := false, tx := none, reports := Reports.empty, claimQueue := []
      lanes := Vector.replicate 2 none, map := Vector.ofFn fun _ => .unknown 0
      subs := Vector.ofFn fun e => s.subs[e].rewait
      events := enqueueEvent s.events { event := .stationState .ready cause, cycle := none } } := rfl

/-- A loss of synchronization in LEAVING, field by field (R32). -/
theorem State.loseSyncLeaving_eq {s : State} (h : s.inTransit = none) :
    s.loseSyncLeaving = { s with
      station := .ready, timeline := none, holdover := 0, settle := 0, listenTimer := .stopped, sessionFlag := false
      drawnPosition := none, beaconHeard := false, tx := none, reports := Reports.empty, claimQueue := []
      lanes := Vector.replicate 2 none, map := Vector.ofFn fun _ => .unknown 0
      streams := Vector.ofFn fun i => s.streams[i].drop, subs := Vector.ofFn fun e => s.subs[e].rewait
      events := eventsAfter s.events (.stationState .ready .holdover :: s.closingStreams.map .streamClosed) none } := by
  rw [State.loseSyncLeaving, State.timelineDrop_eq h, State.arriveReady_eq, State.postAll_eventsAfter]
  simp [Subscription.rewait_rewait, State.cycleNumber, eventsAfter]

/-- The eighth unbeaconed cycle end in a row loses synchronization (R31, R32). -/
theorem State.countHoldover_loses {s : State} (hb : s.beaconHeard = false) (h7 : s.holdover = 7) :
    s.countHoldover = if s.station = .leaving then s.loseSyncLeaving else s.loseSync := by
  have hn : ¬ s.holdover + 1 < Config.holdoverLimit := by rw [h7]; decide
  simp [State.countHoldover, hb, hn]

/-! ## The cycle end -/

theorem exec_cycleEnd {s : State} {t : Timeline} (h : Due s .cycleEnd t) :
    exec .cycleEnd s = .next { (s.nextIs .cycleStart).endCycle with choices := s.choices + 1 } :=
  let ⟨held, on, ht, hb⟩ := h
  congrArg _ (State.atEvent_due held on ht hb)

/-- A cycle end counts quiet before or after the holdover and settle counts (R137, R155). -/
theorem State.endCycle_cases (s : State) :
    s.endCycle = s.receiveCycleEnd.countHoldover ∨ s.endCycle = s.countHoldover.receiveCycleEnd := by
  unfold State.endCycle
  split
  · exact .inl rfl
  · exact .inr rfl

/-- At a loss of synchronization the quiet counting shows in the event queue alone, where it comes first. -/
theorem State.endCycle_loses {s : State} {t : Timeline} (legal : SubsLegal s) (ht : s.timeline = some t)
    (on : s.station.onTimeline = true) (hb : s.beaconHeard = false) (h7 : s.holdover = 7) :
    ∃ (subs : Vector Subscription 16) (events : List EventRecord),
      s.endCycle = (if s.station = .leaving then { s with subs := subs, events := events }.loseSyncLeaving
        else { s with subs := subs, events := events }.loseSync) ∧
      (∀ e : EntryNo, subs[e].rewait = s.subs[e].rewait) ∧
      (events = s.events ∨ events = eventsAfter s.events s.staleEvents (some t.cycle)) := by
  rcases s.endCycle_cases with h | h <;> rw [h]
  · refine ⟨Vector.ofFn fun e => s.subs[e].quieted, eventsAfter s.events s.staleEvents (some t.cycle), ?_,
      fun e => ?_, .inr rfl⟩
    · have hc : s.cycleNumber = some t.cycle := by rw [State.cycleNumber, ht]; rfl
      rw [State.receiveCycleEnd_eq s on, hc]
      exact State.countHoldover_loses hb h7
    · have hidle (hi : s.subs[e].state = .idle) : s.subs[e].quietCount = 0 ∧ s.subs[e].presence = false :=
        ⟨legal.quietOnlyActive e (by rw [hi]; decide), (legal.idleEmpty e hi).2.2⟩
      simpa using Subscription.rewait_quieted hidle
  · refine ⟨s.subs, s.events, ?_, fun e => rfl, .inl rfl⟩
    rw [State.countHoldover_loses hb h7]
    refine State.receiveCycleEnd_off _ ?_
    split
    · rw [State.loseSyncLeaving, State.postAll_eventsAfter]; rfl
    · rw [State.loseSync, State.postAll_eventsAfter]; rfl

/-- The counts of a cycle end that changes no station state stand in different fields, in either order. -/
theorem State.endCycle_counts {s : State} (on : s.station.onTimeline = true)
    (hsettle : s.station = .settle → 1 < s.settle) (hheld : s.beaconHeard = true ∨ s.holdover < 7) :
    s.endCycle = { s with
      subs := Vector.ofFn fun e => s.subs[e].quieted
      holdover := s.heldOver, settle := if s.station = .settle then s.settle - 1 else s.settle
      events := eventsAfter s.events s.staleEvents s.cycleNumber } := by
  rcases s.endCycle_cases with h | h <;> rw [h]
  · rw [State.receiveCycleEnd_eq s on]
    refine (State.countHoldover_counts ?_).trans ((State.countSettle_falls ?_).trans ?_)
    · exact hheld
    · exact hsettle
    · rfl
  · rw [State.countHoldover_counts hheld]
    refine (congrArg State.receiveCycleEnd (State.countSettle_falls ?_)).trans
      ((State.receiveCycleEnd_eq _ ?_).trans ?_)
    · exact hsettle
    · exact on
    · rfl

/-- Where the settle count runs out, STATION_STATE is posted after the SUB_STALE events or before them. -/
theorem State.endCycle_settles {s : State} (hs : s.station = .settle) (h1 : s.settle = 1)
    (hheld : s.beaconHeard = true ∨ s.holdover < 7) :
    ∃ es : List Event, (es = s.staleEvents ++ [.stationState .active .settled] ∨
        es = .stationState .active .settled :: s.staleEvents) ∧
      s.endCycle = { s with
        subs := Vector.ofFn fun e => s.subs[e].quieted, holdover := s.heldOver, settle := 0, station := .active
        events := eventsAfter s.events es s.cycleNumber } := by
  rcases s.endCycle_cases with h | h <;> rw [h]
  · refine ⟨_, .inl rfl, ?_⟩
    rw [State.receiveCycleEnd_eq s (by rw [hs]; rfl), eventsAfter_append]
    refine (State.countHoldover_counts ?_).trans ((State.countSettle_ends ?_ ?_).trans ?_)
    · exact hheld
    · exact hs
    · exact h1
    · rfl
  · refine ⟨_, .inr rfl, ?_⟩
    rw [State.countHoldover_counts hheld]
    refine (congrArg State.receiveCycleEnd (State.countSettle_ends ?_ ?_)).trans
      ((State.receiveCycleEnd_eq _ ?_).trans ?_)
    · exact hs
    · exact h1
    · rfl
    · rfl

theorem transit_none_of_boundary {s : State} {t : Timeline} (pool : PoolLegal s) (ht : s.timeline = some t)
    (hb : ∀ k, t.nextBoundary ≠ .slotEnd k) : s.inTransit = none := by
  cases hi : s.inTransit with
  | none => rfl
  | some b =>
    have hdue := pool.transitDue b hi
    rw [ht] at hdue
    exact absurd (Option.some.inj hdue) (hb b.slot)

end Sys2Proof.Machine

namespace Sys2Proof.Proofs

open Sys2Proof.Machine Sys2Proof.Safety

/-- Settles O42: the two counts of a cycle end change different fields, so that their order does not show. -/
theorem cycleEndCountsQuietAndHoldover : Obligations.CycleEndCountsQuietAndHoldover := by
  intro s t due hsettle hheld
  obtain ⟨-, on, ht, -⟩ := id due
  rw [exec_cycleEnd due, State.nextIs_eq ht, State.endCycle_counts ?_ ?_ ?_]
  · exact ⟨_, rfl, rfl, fun e => by simp [Subscription.quieted]⟩
  · exact on
  · exact hsettle
  · exact hheld

/-- Settles O43: STATION_STATE stands after the SUB_STALE events or before them, by the order of the two counts. -/
theorem settleCountRunsOutIntoActive : Obligations.SettleCountRunsOutIntoActive := by
  intro s t due hs h1 hheld
  obtain ⟨-, -, ht, -⟩ := id due
  obtain ⟨es, hes, hend⟩ := State.endCycle_settles (s := { s with timeline := nextDue t .cycleStart }) hs h1 hheld
  rw [exec_cycleEnd due, State.nextIs_eq ht, hend]
  refine ⟨_, rfl, rfl, fun e => by simp [Subscription.quieted], ?_⟩
  rintro stale rfl
  exact hes.imp (fun h => congrArg (eventsAfter s.events · (some t.cycle)) h)
    (fun h => congrArg (eventsAfter s.events · (some t.cycle)) h)

/-- Settles O44: no block is in transit at a cycle end, and the drop sets anew what quiet counting has changed. -/
theorem eighthUnbeaconedCycleLosesSynchronization : Obligations.EighthUnbeaconedCycleLosesSynchronization := by
  intro s t legal due hb h7
  obtain ⟨-, on, ht, hnext⟩ := id due
  have hi : s.inTransit = none := transit_none_of_boundary legal.pool ht (by rw [hnext]; nofun)
  obtain ⟨subs, events, hend, hsubs, hevents⟩ := State.endCycle_loses
    (s := { s with timeline := nextDue t .cycleStart }) (t := { t with nextBoundary := .cycleStart })
    ⟨legal.subs.queueRoom, legal.subs.quietRange, legal.subs.quietOnlyActive, legal.subs.idleEmpty,
      legal.subs.noExpectation, legal.subs.sourceNamed, legal.subs.pairsDiffer⟩ rfl on hb h7
  rw [exec_cycleEnd due, State.nextIs_eq ht, hend]
  have waits (e : EntryNo) : subs[e].rewait = if s.subs[e].state = .idle then s.subs[e] else
      { s.subs[e] with state := .waiting, expected := none, quietCount := 0, presence := false } :=
    (hsubs e).trans (Subscription.rewait_eq _)
  by_cases hl : s.station = .leaving
  · have he := State.loseSyncLeaving_eq
      (s := { s with timeline := nextDue t .cycleStart, subs := subs, events := events }) hi
    rw [if_pos hl, he]
    refine ⟨_, rfl, ?_, fun _ => ⟨rfl, rfl⟩, fun h => absurd hl h, fun l => by simp, fun k => by simp,
      fun i => (Vector.getElem_ofFn i.isLt).trans (Stream.drop_eq _), fun e => by simpa using waits e, ?_⟩
    · simp [hl, hb]
    · rintro stale closed rfl rfl
      rcases hevents with rfl | rfl
      · exact .inl rfl
      · exact .inr rfl
  · obtain ⟨d, hd, he⟩ := State.loseSync_eq
      (s := { s with timeline := nextDue t .cycleStart, subs := subs, events := events }) rfl hi
    rw [if_neg hl, he]
    refine ⟨_, rfl, ?_, fun h => absurd h hl, fun _ => ⟨rfl, d, hd, rfl⟩, fun l => by simp, fun k => by simp,
      fun i => (Vector.getElem_ofFn i.isLt).trans (Stream.drop_eq _), fun e => by simpa using waits e, ?_⟩
    · simp [hl, hb, Timeline.ends, Config.tailTime]
    · rintro stale closed rfl rfl
      rcases hevents with rfl | rfl
      · exact .inl rfl
      · exact .inr rfl

end Sys2Proof.Proofs
end

section
/-! PROOF. Joining a timeline: adoption, merges and founding: O46, O48 and O50. -/

namespace Sys2Proof.Machine

open Sys2Proof.Safety

/-! ## What the receiver does not give (R7, R17, R174) -/

theorem FrameKind.ofPattern_none {pattern : Half} (h : pattern ≠ 0xAA5C) (k : pattern ≠ 0xAA3A) :
    FrameKind.ofPattern pattern = none :=
  (if_neg h).trans (if_neg k)

/-- Only the start pattern of a beacon gives a beacon (R174). -/
theorem Frame.parse_beacon {pattern : Half} {bytes : List Byte} {b : BeaconFrame}
    (h : Frame.parse pattern bytes = some (.beacon b)) : pattern = 0xAA5C ∨ pattern = 0xAA3A := by
  by_contra hn
  rw [not_or] at hn
  rw [Frame.parse, FrameKind.ofPattern_none hn.1 hn.2] at h
  cases h

/-- A frame report that the receiver does not give changes nothing. -/
theorem exec_frameReport_unreported {s : State} {pattern : Half} (h : s.reportsFrame pattern = false)
    (bytes : List Byte) (firstBit lastBit : Time) : exec (.frameReport pattern bytes firstBit lastBit) s = .next s := by
  refine congrArg Host.Outcome.next ?_
  rcases s.unlessHeld_cases _ with ⟨-, he⟩ | ⟨-, he⟩
  · exact he
  · rw [he, h]; rfl

theorem State.transmitting_none {s : State} (h : s.tx = none) : s.transmitting = false := by
  simp only [State.transmitting, h]

theorem Receiver.misses_of_missed {r : Receiver} {firstBit lastBit : Time} (h : Missed r firstBit lastBit) :
    r.misses firstBit lastBit = true := (r.misses_iff ..).mpr h

theorem Receiver.misses_of_not_missed {r : Receiver} {firstBit lastBit : Time} (h : ¬ Missed r firstBit lastBit) :
    r.misses firstBit lastBit = false := by
  rw [← Bool.not_eq_true, Receiver.misses_iff]
  exact h

/-- A report of a missed frame bounds the moment of START alone (R17). -/
theorem exec_frameReport_missed {s : State} {firstBit lastBit : Time} (held : s.resetHeld = false)
    (h : Missed s.receiver firstBit lastBit) (pattern : Half) (bytes : List Byte) :
    exec (.frameReport pattern bytes firstBit lastBit) s = .next s ∨
      exec (.frameReport pattern bytes firstBit lastBit) s = .next (s.hears lastBit) := by
  cases hr : s.reportsFrame pattern with
  | false => exact .inl (exec_frameReport_unreported hr ..)
  | true =>
    refine .inr (congrArg Host.Outcome.next ((State.unlessHeld_released held _).trans ?_))
    rw [if_pos hr, if_pos (Receiver.misses_of_missed h)]

/-! ## Frame reports in LISTEN (R28) -/

section Listen

variable {s : State} {pattern : Half} {bytes : List Byte} {firstBit lastBit : Time}

theorem State.reportsFrame_listen (hl : s.station = .listen) (hx : s.tx = none)
    (hp : pattern = 0xAA5C ∨ pattern = 0xAA3A) : s.reportsFrame pattern = true := by
  simp [State.reportsFrame, hl, StationState.receiverOn, FrameKind.ofPattern_isSome hp, State.transmitting_none hx]

/-- In LISTEN a report that is not missed bounds the moment of START and is handed to the beacon unit. -/
theorem exec_frameReport_listen (held : s.resetHeld = false) (hl : s.station = .listen) (hx : s.tx = none)
    (hp : pattern = 0xAA5C ∨ pattern = 0xAA3A) (hm : ¬ Missed s.receiver firstBit lastBit) :
    exec (.frameReport pattern bytes firstBit lastBit) s = .next
      ((s.hears lastBit).handBeacon
        { frame := Frame.parse pattern bytes, firstBit := firstBit, lastBit := lastBit }) := by
  refine congrArg Host.Outcome.next ((State.unlessHeld_released held _).trans ?_)
  rw [if_pos (State.reportsFrame_listen hl hx hp), if_neg (by simp [Receiver.misses_of_not_missed hm]),
    State.takeReport, if_neg (by simp [hl, StationState.onTimeline])]

/-- In LISTEN a frame that is missed, or no clean beacon, bounds the moment of START alone (R17). -/
theorem exec_frameReport_listen_other (held : s.resetHeld = false) (hl : s.station = .listen) (hx : s.tx = none)
    (hp : pattern = 0xAA5C ∨ pattern = 0xAA3A)
    (h : Missed s.receiver firstBit lastBit ∨ ∀ b : BeaconFrame, Frame.parse pattern bytes ≠ some (.beacon b)) :
    exec (.frameReport pattern bytes firstBit lastBit) s = .next (s.hears lastBit) := by
  by_cases hm : Missed s.receiver firstBit lastBit
  · refine congrArg Host.Outcome.next ((State.unlessHeld_released held _).trans ?_)
    rw [if_pos (State.reportsFrame_listen hl hx hp), if_pos (Receiver.misses_of_missed hm)]
  · rw [exec_frameReport_listen held hl hx hp hm]
    refine congrArg Host.Outcome.next ?_
    unfold State.handBeacon
    split
    · exact absurd ‹_› (h.resolve_left hm _)
    · rfl
    · rfl

end Listen

/-! ## The map of a station that joins (R71) -/

theorem MapEntry.reported_eq (e : MapEntry) :
    e.reported = match e with
      | .unknown _ => .held none 0
      | .free => .held none 0
      | e => e := by cases e <;> rfl

/-- A beacon joined is counted, its summary merged and its sender checked (R51, R53, R71). -/
theorem State.takeJoined_eq (s : State) (b : BeaconFrame) :
    (s.countCleanBeacon.mergeSummary b.occupancy).checkAddress b.sender = { s with
      counters := { s.counters with cleanBeacons := bump s.counters.cleanBeacons }
      map := Vector.ofFn fun k => if b.occupancy[k] then s.map[k].reported else s.map[k]
      sessionFlag := s.sessionFlag || b.sender == s.config.address
      events := eventsAfter s.events
        (if b.sender = s.config.address ∧ s.sessionFlag = false then [.addressClash] else []) s.cycleNumber } := by
  rw [State.checkAddress_eq, eventsAfter_ite]
  simp only [State.mergeSummary, State.mapEntries, State.countCleanBeacon, State.cycleNumber]
  rfl

/-- The timeline record that a beacon gives (R3, R19). -/
def BeaconFrame.timeline (b : BeaconFrame) (firstBit : Time) : Timeline :=
  { founder := b.founder, cycle := b.cycle, startedAt := b.placedStart firstBit, nextBoundary := b.nextBoundary }

/-- Adoption, field by field (R28, R53). -/
theorem State.adopt_eq (s : State) (b : BeaconFrame) (firstBit lastBit : Time) :
    s.adopt b firstBit lastBit = { s with
      station := .settle, receiver := .restarted lastBit, holdover := 0, settle := Config.settleCycles
      listenTimer := .stopped, drawnPosition := none, beaconHeard := true, activityCurrent := noSlots
      activityPrevious := noSlots, reports := Reports.empty, timeline := some (b.timeline firstBit)
      counters := { s.counters with cleanBeacons := bump s.counters.cleanBeacons }
      map := Vector.ofFn fun k => if b.occupancy[k] then s.map[k].reported else s.map[k]
      sessionFlag := s.sessionFlag || b.sender == s.config.address
      events := eventsAfter s.events (.stationState .settle .adopt ::
        if b.sender = s.config.address ∧ s.sessionFlag = false then [.addressClash] else []) (some b.cycle) } := by
  rw [State.adopt, State.takeJoined_eq]
  rfl

/-! ## Merges (R33, R38, R55) -/

/-- The queue of stream `i` once a block in transit has been settled by its disposal (R38). -/
def State.returnedQueue (s : State) (i : StreamNo) : List Block :=
  match s.inTransit with
  | some d => if d.stream = i ∧ d.disposal = .returnToQueue then d.block :: s.streams[i].queue else s.streams[i].queue
  | none => s.streams[i].queue

/-- The buffers that a block in transit gives back when it is settled (R38). -/
def State.settledBuffers (s : State) : List BufferNo :=
  match s.inTransit with
  | some d => if d.disposal = .freeBuffer then [d.block.buffer] else []
  | none => []

theorem State.settleTransit_eq (s : State) :
    s.settleTransit = { s with
      inTransit := none, freeList := s.freeList ++ s.settledBuffers
      streams := Vector.ofFn fun i => { s.streams[i] with queue := s.returnedQueue i } } := by
  have same : (Vector.ofFn fun i : StreamNo => s.streams[i]) = s.streams := by ext1; simp
  unfold State.returnedQueue State.settledBuffers
  match h : s.inTransit with
  | none =>
    rw [State.settleTransit_none h, List.append_nil, same, ← h]
  | some { stream := j, slot := k, block := b, disposal := .returnToQueue } =>
    rw [State.settleTransit_returns h rfl]
    have hset : s.streams.set j { s.streams[j] with queue := b :: s.streams[j].queue } =
        Vector.ofFn fun i => { s.streams[i] with
          queue := if j = i ∧ Disposal.returnToQueue = .returnToQueue then b :: s.streams[i].queue
            else s.streams[i].queue } := by
      ext1 i hi
      by_cases hj : j = ⟨i, hi⟩
      · subst hj; simp
      · have hne : j.val ≠ i := fun he => hj (Fin.ext he)
        simp [hj, hne]
    rw [hset]
    simp
  | some { stream := j, slot := k, block := b, disposal := .freeBuffer } =>
    rw [State.settleTransit_frees h rfl]
    simp

/-- What a timeline drop leaves of a stream record (R38). -/
def State.droppedStream (s : State) (i : StreamNo) : Stream :=
  { s.streams[i] with queue := s.returnedQueue i }.drop

/-- The block in transit goes back to the queue of a stream that is CLAIMING or LIVE alone. -/
theorem State.returnedQueue_eq {s : State} {i : StreamNo} (streams : StreamsLegal s) (pool : PoolLegal s)
    (hc : s.streams[i].state ≠ .claiming) (hl : s.streams[i].state ≠ .live) :
    s.returnedQueue i = s.streams[i].queue := by
  unfold State.returnedQueue
  split
  · rename_i d hd
    refine if_neg ?_
    rintro ⟨rfl, hret⟩
    obtain ⟨hidle, hclosing⟩ := pool.transitReturns d hd hret
    have hheld : d.slot ∈ s.streams[d.stream].held := ((streams.each _).heldMine _).mpr (pool.transitMine d hd)
    cases hs : s.streams[d.stream].state with
    | idle => exact hidle hs
    | closing => exact hclosing hs
    | claiming => exact hc hs
    | live => exact hl hs
    | failed => exact List.ne_nil_of_mem hheld ((streams.each _).idleHolds (.inr hs))
  · rfl

theorem State.droppedStream_eq {s : State} (streams : StreamsLegal s) (pool : PoolLegal s) (i : StreamNo) :
    s.droppedStream i = match s.streams[i].state with
      | .claiming | .live => { s.streams[i] with
          state := .claiming, held := [], attempts := 0, backoff := 0, deferral := 0, shortPosted := false
          queue := s.returnedQueue i }
      | .closing => { s.streams[i] with state := .idle, held := [] }
      | .idle | .failed => s.streams[i] := by
  have kept := State.returnedQueue_eq (i := i) streams pool
  rw [State.droppedStream, Stream.drop_eq]
  cases hs : s.streams[i].state with
  | claiming | live => rfl
  | idle | closing | failed => rw [kept (by rw [hs]; decide) (by rw [hs]; decide)]

/-- What a timeline drop leaves (R38). -/
theorem State.timelineDrop_settles (s : State) :
    s.timelineDrop = { s with
      inTransit := none, freeList := s.freeList ++ s.settledBuffers, claimQueue := []
      lanes := Vector.replicate 2 none, map := Vector.ofFn fun _ => .unknown 0
      streams := Vector.ofFn s.droppedStream, subs := Vector.ofFn fun e => s.subs[e].rewait, tx := none } := by
  have drops : (Vector.ofFn fun i : StreamNo =>
      (Vector.ofFn fun i : StreamNo => { s.streams[i] with queue := s.returnedQueue i })[i].drop) =
      Vector.ofFn s.droppedStream := by
    ext1 i hi
    simp [State.droppedStream]
  simp only [State.timelineDrop, State.settleTransit_eq, State.emptyClaims, State.clearMap, State.mapEntries,
    State.mapStreams, State.mapSubs, drops]

/-- A merge in SETTLE or ACTIVE, field by field (R33, R55). -/
theorem State.mergeOnto_eq (s : State) (b : BeaconFrame) (firstBit : Time) :
    s.mergeOnto b firstBit = { s with
      station := .settle, timeline := some (b.timeline firstBit), holdover := 0, settle := Config.settleCycles
      listenTimer := .stopped, drawnPosition := none, beaconHeard := true, activityCurrent := noSlots
      activityPrevious := noSlots, reports := Reports.empty, tx := none, inTransit := none
      freeList := s.freeList ++ s.settledBuffers, claimQueue := [], lanes := Vector.replicate 2 none
      map := Vector.ofFn fun k => if b.occupancy[k] then .held none 0 else .unknown 0
      streams := Vector.ofFn s.droppedStream, subs := Vector.ofFn fun e => s.subs[e].rewait
      counters := { s.counters with cleanBeacons := bump s.counters.cleanBeacons }
      sessionFlag := s.sessionFlag || b.sender == s.config.address
      events := eventsAfter s.events (.stationState .settle .merge :: (s.closingStreams.map .streamClosed ++
        if b.sender = s.config.address ∧ s.sessionFlag = false then [.addressClash] else [])) (some b.cycle) } := by
  have cleared : (Vector.ofFn fun k : SlotNo =>
      if b.occupancy[k] then (Vector.ofFn fun _ : SlotNo => MapEntry.unknown 0)[k].reported
      else (Vector.ofFn fun _ : SlotNo => MapEntry.unknown 0)[k]) =
      Vector.ofFn fun k => if b.occupancy[k] then .held none 0 else .unknown 0 := by
    ext1 k hk
    simp [MapEntry.reported]
  rw [State.mergeOnto, State.takeJoined_eq, State.timelineDrop_settles, State.postAll_eventsAfter]
  simp only [State.joinTimeline, State.clearActivity, State.enter, State.post, State.cycleNumber, cleared,
    Option.map_some, eventsAfter, List.foldl_cons, List.foldl_append]
  rfl

/-- A merge in LEAVING, field by field (R33, R55). -/
theorem State.mergeLeaving_eq (s : State) (b : BeaconFrame) :
    s.mergeLeaving b = { s with
      station := .ready, timeline := none, holdover := 0, settle := 0, listenTimer := .stopped, sessionFlag := false
      drawnPosition := none, beaconHeard := false, tx := none, reports := Reports.empty, inTransit := none
      freeList := s.freeList ++ s.settledBuffers, claimQueue := [], lanes := Vector.replicate 2 none
      map := Vector.ofFn fun _ => .unknown 0, streams := Vector.ofFn s.droppedStream
      subs := Vector.ofFn fun e => s.subs[e].rewait
      events := eventsAfter s.events (.stationState .ready .merge :: (s.closingStreams.map .streamClosed ++
        if b.sender = s.config.address ∧ s.sessionFlag = false then [.addressClash] else [])) none } := by
  rw [State.mergeLeaving, State.timelineDrop_settles, State.arriveReady_eq, State.postAll_eventsAfter]
  simp only [State.post, State.cycleNumber, Fin.getElem_fin, Vector.getElem_ofFn, Subscription.rewait_rewait, eventsAfter,
    List.foldl_cons, List.foldl_append]
  split <;> rfl

/-- A foreign beacon of a lower founder is merged onto (R54). -/
theorem State.handBeacon_of_lower {s : State} {t : Timeline} {r : FrameReport} {b : BeaconFrame}
    (on : s.station.onTimeline = true) (ht : s.timeline = some t) (hr : r.frame = some (.beacon b))
    (h : b.founder < t.founder) :
    s.handBeacon r = if s.station = .leaving then s.mergeLeaving b else s.mergeOnto b r.firstBit := by
  have hl := (StationState.onTimeline_receives on).2
  have hne : b.founder ≠ t.founder := fun he => absurd (he ▸ h) (BitVec.lt_irrefl _)
  simp [State.handBeacon, hr, hl, State.running_eq on ht, State.sortBeacon, hne, h]

/-! ## The expiry of the listen timer (R26, R27) -/

theorem exec_listenTimerExpiry {s : State} {time : Time} {n : Nat} (held : s.resetHeld = false)
    (hl : s.station = .listen) (hm : s.listenTimer = .counting n) :
    exec (.listenTimerExpiry time) s = .next (if s.config.founderEligible then s.found time else s.startTimer) :=
  congrArg Host.Outcome.next ((State.unlessHeld_released held _).trans (if_pos ⟨hl, by rw [hm]; rfl⟩))

/-- Founding, field by field (R27), by a station that is beacon-eligible. -/
theorem State.found_eq {s : State} {time : Time} (h : s.config.beaconEligible = true) :
    s.found time = { s with
      station := .active, listenTimer := .stopped, holdover := 0, settle := 0
      timeline := some { founder := s.config.address, cycle := 0, startedAt := time, nextBoundary := .positionOpen 0 }
      activityCurrent := noSlots, activityPrevious := noSlots, reports := Reports.empty
      map := Vector.ofFn fun k => if s.map[k].owned then s.map[k] else .free
      drawnPosition := some (Fin.ofNat 8 (s.drawn 8)), draws := s.draws + 1, beaconHeard := false
      events := enqueueEvent s.events { event := .stationState .active .found, cycle := some 0 } } :=
  State.drawPosition_eligible rfl h

end Sys2Proof.Machine

namespace Sys2Proof.Proofs

open Sys2Proof.Machine Sys2Proof.Safety

/-- Settles O46, by the station state and the frame reported. -/
theorem cleanBeaconInListenIsAdopted : Obligations.CleanBeaconInListenIsAdopted := by
  intro s pattern bytes firstBit lastBit held
  refine ⟨fun h => ?_, fun h5C h3A => ?_, fun hl hm => ?_, fun hl hx hp h => ?_, fun b hl hx hm hb => ?_⟩
  · refine exec_frameReport_unreported ?_ ..
    rcases h with h | h <;> simp [State.reportsFrame, h, StationState.receiverOn]
  · refine exec_frameReport_unreported ?_ ..
    simp [State.reportsFrame, FrameKind.ofPattern_none h5C h3A]
  · rcases exec_frameReport_missed held hm pattern bytes with he | he
    · exact he
    · rw [he, State.hears_of_ne s lastBit hl]
  · rw [exec_frameReport_listen_other held hl hx hp h, State.hears_listen s lastBit hl]
  · have he : (s.hears lastBit).handBeacon
        { frame := Frame.parse pattern bytes, firstBit := firstBit, lastBit := lastBit } =
        (s.hears lastBit).adopt b firstBit lastBit := by
      simp [State.handBeacon, hb, hl]
    rw [exec_frameReport_listen held hl hx (Frame.parse_beacon hb) hm, he, State.hears_listen s lastBit hl,
      State.adopt_eq]
    refine ⟨_, rfl, rfl, fun k => (Vector.getElem_ofFn k.isLt).trans ?_⟩
    rw [MapEntry.reported_eq] <;> rfl

/-- Settles O48, by the station state; a block in transit belongs to a stream that is CLAIMING or LIVE, or is freed. -/
theorem lowerFounderMerges : Obligations.LowerFounderMerges := by
  intro s pattern bytes firstBit lastBit t b legal held ht hx hm hb hlow
  have on : s.station.onTimeline = true := by rw [← legal.station.timelinePresent, ht]; rfl
  have quiet : s.transmitting = false := by
    rw [← Bool.not_eq_true, State.transmitting_iff]
    rintro ⟨x, hs, hne⟩
    exact hne (hx x hs)
  rw [exec_frameReport_onTimeline held on (Frame.parse_beacon hb) hm quiet bytes]
  generalize hr : FrameReport.mk (Frame.parse pattern bytes) firstBit lastBit = r
  rw [State.handBeacon_of_lower (s := s.gatherFrame r) on ht (hr ▸ hb) hlow]
  have waits (e : EntryNo) := Subscription.rewait_eq s.subs[e]
  have drops := State.droppedStream_eq legal.streams legal.pool
  by_cases hl : (s.gatherFrame r).station = .leaving
  · rw [if_pos hl, State.mergeLeaving_eq]
    refine ⟨_, rfl, rfl, fun l => Vector.getElem_replicate l.isLt,
      fun e => (Vector.getElem_ofFn e.isLt).trans (waits e), fun i => (Vector.getElem_ofFn i.isLt).trans (drops i), rfl,
      fun h => absurd hl h, fun _ => ⟨rfl, rfl, rfl, rfl, rfl, rfl, rfl, rfl, fun k => Vector.getElem_ofFn k.isLt, rfl⟩⟩
  · rw [if_neg hl, State.mergeOnto_eq]
    subst hr
    refine ⟨_, rfl, rfl, fun l => Vector.getElem_replicate l.isLt,
      fun e => (Vector.getElem_ofFn e.isLt).trans (waits e), fun i => (Vector.getElem_ofFn i.isLt).trans (drops i), rfl,
      fun _ => ⟨rfl, rfl, rfl, rfl, rfl, rfl, rfl, fun k => Vector.getElem_ofFn k.isLt, rfl, rfl⟩,
      fun h => absurd h hl⟩

/-- Settles O50, by the timer and the configuration. -/
theorem listenTimerExpiryFoundsOrWaits : Obligations.ListenTimerExpiryFoundsOrWaits := by
  intro s time held legal
  refine ⟨fun n hl hm => ⟨fun hf => ?_, fun hf => ?_⟩, fun h => ?_⟩
  · have hcfg : s.config.beaconEligible = true := (legal.station.configSet (by simp [hl])).2.2 hf
    rw [exec_listenTimerExpiry held hl hm, if_pos hf, State.found_eq hcfg]
    refine ⟨_, _, rfl, rfl, fun k => (Vector.getElem_ofFn k.isLt).trans ?_⟩
    have hk := legal.map k
    cases he : s.map[k] <;> simp_all [entryLegal, MapEntry.owned, StationState.onTimeline]
  · obtain ⟨hmm, hc⟩ := legal.station.timerRuns hl
    obtain ⟨d, hd, he⟩ := State.startTimer_quiet (hc.mp (by rw [hm]; rfl))
    exact ⟨d, hd, by rw [exec_listenTimerExpiry held hl hm, if_neg (by simp [hf]), he]⟩
  · refine congrArg Host.Outcome.next ((State.unlessHeld_released held _).trans (if_neg ?_))
    rintro ⟨hl, hc⟩
    cases hm : s.listenTimer with
    | counting n => exact (h.resolve_left (not_not_intro hl)) n hm
    | held n => simp [hm, ListenTimer.isCounting] at hc
    | stopped => simp [hm, ListenTimer.isCounting] at hc

end Sys2Proof.Proofs
end

section
/-! PROOF. The close of a stream and STOP: O9 and O10. -/

namespace Sys2Proof.Safety

open Sys2Proof.Machine

/-! ## What the laws say of one stream -/

theorem StreamLegal.failure_none {s : State} {i : StreamNo} (h : StreamLegal s i)
    (hf : s.streams[i].state ≠ .failed) : s.streams[i].failure = none := by
  rw [← Option.not_isSome_iff_eq_none, h.failureHeld]
  exact hf

theorem StreamLegal.live_holds {s : State} {i : StreamNo} (h : StreamLegal s i) (hl : s.streams[i].state = .live) :
    s.streams[i].held ≠ [] := by
  intro hn
  have hw := h.liveHolds hl
  have h1 := h.wantedRange.1
  rw [hn] at hw
  exact absurd hw (Nat.ne_of_lt h1)

end Sys2Proof.Safety

namespace Sys2Proof.Machine

open Sys2Proof.Safety

/-! ## The part of a state that the claim engine and the stream unit work on -/

/-- The slot map, the claim engine, the stream unit, the free list and the event queue. -/
structure Work where
  map        : Vector MapEntry 48
  claimQueue : List StreamNo
  lanes      : Vector (Option Lane) 2
  streams    : Vector Stream 8
  inTransit  : Option InTransit
  freeList   : List BufferNo
  events     : List EventRecord

def State.work (s : State) : Work :=
  { map := s.map, claimQueue := s.claimQueue, lanes := s.lanes, streams := s.streams, inTransit := s.inTransit
    freeList := s.freeList, events := s.events }

def State.withWork (s : State) (w : Work) : State :=
  { s with map := w.map, claimQueue := w.claimQueue, lanes := w.lanes, streams := w.streams, inTransit := w.inTransit
           freeList := w.freeList, events := w.events }

theorem State.withWork_work (s : State) : s.withWork s.work = s := rfl

@[simp] theorem State.withWork_withWork (s : State) (v w : Work) : (s.withWork v).withWork w = s.withWork w := rfl

@[simp] theorem State.withWork_map (s : State) (w : Work) : (s.withWork w).map = w.map := rfl
@[simp] theorem State.withWork_claimQueue (s : State) (w : Work) : (s.withWork w).claimQueue = w.claimQueue := rfl
@[simp] theorem State.withWork_lanes (s : State) (w : Work) : (s.withWork w).lanes = w.lanes := rfl
@[simp] theorem State.withWork_streams (s : State) (w : Work) : (s.withWork w).streams = w.streams := rfl
@[simp] theorem State.withWork_inTransit (s : State) (w : Work) : (s.withWork w).inTransit = w.inTransit := rfl
@[simp] theorem State.withWork_freeList (s : State) (w : Work) : (s.withWork w).freeList = w.freeList := rfl
@[simp] theorem State.withWork_events (s : State) (w : Work) : (s.withWork w).events = w.events := rfl
@[simp] theorem State.withWork_subs (s : State) (w : Work) : (s.withWork w).subs = s.subs := rfl
@[simp] theorem State.withWork_station (s : State) (w : Work) : (s.withWork w).station = s.station := rfl
@[simp] theorem State.withWork_cycleNumber (s : State) (w : Work) : (s.withWork w).cycleNumber = s.cycleNumber := rfl

/-! ## The lanes that a stream gives up (R98) -/

/-- The lanes and the PROBE entries tell the same story (R58, R83). -/
structure LanesFit (s : State) : Prop where
  lanesProbe : ∀ l : LaneNo, ∀ r ∈ s.lanes[l], s.map[r.slot] = .probe l r.stream
  probesLaned : ∀ (k : SlotNo) (l : LaneNo) (i : StreamNo), s.map[k] = .probe l i →
    ∃ r ∈ s.lanes[l], r.slot = k ∧ r.stream = i

theorem LanesFit.of_claims {s : State} (h : ClaimsLegal s) : LanesFit s :=
  ⟨fun l r hr => (h.lanedClaims l r hr).2.1, h.probesLaned⟩

/-- A lane that is idle where it carried stream `i`. -/
def laneWithout (i : StreamNo) (r : Option Lane) : Option Lane := r.filter fun r => r.stream != i

theorem mem_laneWithout {i : StreamNo} {r : Lane} {lane : Option Lane} :
    r ∈ laneWithout i lane ↔ r ∈ lane ∧ r.stream ≠ i := by
  simp [laneWithout, Option.filter_eq_some_iff]

/-- An entry that is HELD(absent) where it was PROBE for stream `i` (R98). -/
def MapEntry.unprobed (i : StreamNo) : MapEntry → MapEntry
  | .probe l j => if j = i then .held none 0 else .probe l j
  | e => e

theorem State.laneCarries_iff (s : State) (l : LaneNo) (i : StreamNo) :
    s.laneCarries l i = true ↔ ∃ r, s.lanes[l] = some r ∧ r.stream = i := by
  unfold State.laneCarries
  cases h : s.lanes[l] <;> simp

/-- Giving up a lane moves the lanes and the map alone. -/
theorem State.abandonLaneOf_frame (s : State) (i : StreamNo) (l : LaneNo) :
    s.abandonLaneOf i l = s.withWork { s.work with
      lanes := (s.abandonLaneOf i l).lanes, map := (s.abandonLaneOf i l).map } := by
  unfold State.abandonLaneOf State.abandonLane
  split
  · split <;> rfl
  · rfl

/-- A lane that gives up stream `i` is idle, and its slot's entry HELD(absent). -/
theorem State.abandonLaneOf_eq {s : State} (fit : LanesFit s) (i : StreamNo) (l : LaneNo) :
    s.abandonLaneOf i l = s.withWork { s.work with
      lanes := s.lanes.set l (laneWithout i s.lanes[l])
      map := Vector.ofFn fun k => if s.map[k] = .probe l i then .held none 0 else s.map[k] } := by
  unfold State.abandonLaneOf State.abandonLane
  by_cases hc : s.laneCarries l i = true
  · obtain ⟨r, hr, rfl⟩ := (s.laneCarries_iff l i).mp hc
    have hmap : s.map.set r.slot (.held none 0) =
        Vector.ofFn fun k => if s.map[k] = .probe l r.stream then .held none 0 else s.map[k] := by
      refine Vector.ext fun k hk => ?_
      rw [Vector.getElem_ofFn, Vector.getElem_set]
      by_cases hs : r.slot = ⟨k, hk⟩
      · rw [if_pos (congrArg Fin.val hs), ← hs, if_pos (fit.lanesProbe l r hr)]
      · rw [if_neg fun h => hs (Fin.ext h), if_neg]
        · rfl
        · intro he
          obtain ⟨q, hq, hk', -⟩ := fit.probesLaned _ _ _ he
          obtain rfl : r = q := Option.some.inj (hr.symm.trans hq)
          exact hs hk'
    have hlane : laneWithout r.stream s.lanes[l] = none := by rw [hr]; simp [laneWithout]
    rw [hlane, ← hmap]
    simp only [if_pos hc, hr]
    rfl
  · have hmap : (Vector.ofFn fun k : SlotNo => if s.map[k] = .probe l i then .held none 0 else s.map[k]) = s.map := by
      refine Vector.ext fun k hk => ?_
      rw [Vector.getElem_ofFn, if_neg]
      · rfl
      · intro he
        obtain ⟨q, hq, -, hi⟩ := fit.probesLaned _ _ _ he
        exact hc ((s.laneCarries_iff l i).mpr ⟨q, hq, hi⟩)
    have hlane : laneWithout i s.lanes[l] = s.lanes[l] := by
      cases hl : s.lanes[l] with
      | none => rfl
      | some r =>
        have hne : r.stream ≠ i := fun he => hc ((s.laneCarries_iff l i).mpr ⟨r, hl, he⟩)
        simp [laneWithout, hne]
    have hlanes : s.lanes.set l (laneWithout i s.lanes[l]) = s.lanes := by rw [hlane]; simp
    rw [if_neg hc, hmap, hlanes]
    rfl

theorem State.abandonLaneOf_lane {s : State} (fit : LanesFit s) (i : StreamNo) (l m : LaneNo) :
    (s.abandonLaneOf i l).lanes[m] = if l = m then laneWithout i s.lanes[l] else s.lanes[m] := by
  rw [State.abandonLaneOf_eq fit, State.withWork_lanes]
  simp only [Fin.getElem_fin, Vector.getElem_set, Fin.ext_iff]

theorem State.abandonLaneOf_entry {s : State} (fit : LanesFit s) (i : StreamNo) (l : LaneNo) (k : SlotNo) :
    (s.abandonLaneOf i l).map[k] = if s.map[k] = .probe l i then .held none 0 else s.map[k] := by
  rw [State.abandonLaneOf_eq fit, State.withWork_map]
  exact Vector.getElem_ofFn k.isLt

/-- Giving up a lane keeps the lanes and the PROBE entries together. -/
theorem LanesFit.abandonLaneOf {s : State} (fit : LanesFit s) (i : StreamNo) (l : LaneNo) :
    LanesFit (s.abandonLaneOf i l) := by
  refine ⟨fun m r hr => ?_, fun k m j hk => ?_⟩
  · rw [State.abandonLaneOf_lane fit] at hr
    have old : r ∈ s.lanes[m] ∧ (m = l → r.stream ≠ i) := by
      split at hr
      · obtain rfl := ‹l = m›
        exact (mem_laneWithout.mp hr).imp id fun h _ => h
      · exact ⟨hr, fun h => absurd h.symm ‹_›⟩
    rw [State.abandonLaneOf_entry fit, fit.lanesProbe m r old.1, if_neg]
    rintro ⟨⟩
    exact old.2 rfl rfl
  · rw [State.abandonLaneOf_entry fit] at hk
    split at hk
    · cases hk
    · rename_i hne
      obtain ⟨r, hr, hs, rfl⟩ := fit.probesLaned k m j hk
      refine ⟨r, ?_, hs, rfl⟩
      rw [State.abandonLaneOf_lane fit]
      split
      · obtain rfl := ‹l = m›
        exact mem_laneWithout.mpr ⟨hr, fun h => hne (h ▸ hk)⟩
      · exact hr

/-- The claim engine's part of a close (R98). -/
theorem State.leaveClaims_eq {s : State} (fit : LanesFit s) (i : StreamNo) :
    s.leaveClaims i = s.withWork { s.work with
      lanes := Vector.ofFn fun l => laneWithout i s.lanes[l], map := Vector.ofFn fun k => s.map[k].unprobed i
      claimQueue := s.claimQueue.filter (· ≠ i), streams := s.streams.set i s.streams[i].clearClaim } := by
  have fit0 := fit.abandonLaneOf i 0
  have lanes : ((s.abandonLaneOf i 0).abandonLaneOf i 1).lanes = Vector.ofFn fun l => laneWithout i s.lanes[l] := by
    refine Vector.ext fun l hl => ?_
    have h := State.abandonLaneOf_lane fit0 i 1 ⟨l, hl⟩
    rw [State.abandonLaneOf_lane fit, State.abandonLaneOf_lane fit] at h
    rw [Vector.getElem_ofFn]
    refine Eq.trans h ?_
    rcases LaneNo.eq_zero_or_one ⟨l, hl⟩ with h | h <;> simp [h]
  have map : ((s.abandonLaneOf i 0).abandonLaneOf i 1).map = Vector.ofFn fun k => s.map[k].unprobed i := by
    refine Vector.ext fun k hk => ?_
    have h := State.abandonLaneOf_entry fit0 i 1 ⟨k, hk⟩
    rw [State.abandonLaneOf_entry fit] at h
    rw [Vector.getElem_ofFn]
    refine Eq.trans h ?_
    cases s.map[(⟨k, hk⟩ : SlotNo)] with
    | probe l j => rcases LaneNo.eq_zero_or_one l with rfl | rfl <;> by_cases hj : j = i <;> simp [hj, MapEntry.unprobed]
    | _ => simp [MapEntry.unprobed]
  have both : (s.abandonLaneOf i 0).abandonLaneOf i 1 = s.withWork { s.work with
      lanes := Vector.ofFn fun l => laneWithout i s.lanes[l], map := Vector.ofFn fun k => s.map[k].unprobed i } := by
    have first := s.abandonLaneOf_frame i 0
    have second := (s.abandonLaneOf i 0).abandonLaneOf_frame i 1
    rw [lanes, map] at second
    rw [second, first]
    rfl
  simp only [State.leaveClaims, both, State.modStream, State.withWork, State.work]

/-! ## The close of a stream (R116, R117) -/

/-- The in-transit block once stream `i` closes: it is to be freed at its slot end (R116). -/
def InTransit.condemned (i : StreamNo) (b : InTransit) : InTransit :=
  if b.stream = i then { b with disposal := .freeBuffer } else b

theorem State.condemnTransit_eq (s : State) (i : StreamNo) :
    s.condemnTransit i = s.withWork { s.work with inTransit := s.inTransit.map (InTransit.condemned i) } := by
  unfold State.condemnTransit
  split
  · rename_i b hb
    rw [hb, Option.map_some, InTransit.condemned]
    split
    · rfl
    · rw [← hb]; rfl
  · rename_i hn
    rw [hn, Option.map_none, ← hn]
    rfl

/-- An entry once stream `i` has closed: a MINE entry of it is final-pending, and a PROBE entry given up (R77, R98). -/
def MapEntry.closed (i : StreamNo) : MapEntry → MapEntry
  | .mine j c f => .mine j c (f || j == i)
  | .probe l j => if j = i then .held none 0 else .probe l j
  | e => e

theorem MapEntry.isMineOf_closed (i j : StreamNo) (e : MapEntry) : (e.closed i).isMineOf j = e.isMineOf j := by
  cases e with
  | probe l m => simp only [MapEntry.closed]; split <;> rfl
  | _ => rfl

/-- A MINE entry of stream `i` becomes final-pending (R77). -/
def MapEntry.finalled (i : StreamNo) : MapEntry → MapEntry
  | .mine j c f => .mine j c (f || j == i)
  | e => e

theorem MapEntry.finalled_unprobed (i : StreamNo) (e : MapEntry) : (e.unprobed i).finalled i = e.closed i := by
  cases e with
  | probe l j => by_cases h : j = i <;> simp [MapEntry.unprobed, MapEntry.closed, MapEntry.finalled, h]
  | _ => rfl

theorem State.markFinal_eq (s : State) (i : StreamNo) :
    s.markFinal i = s.withWork { s.work with map := Vector.ofFn fun k => s.map[k].finalled i } := by
  have entry (k : SlotNo) : (s.markFinal i).map[k] = s.map[k].finalled i := by
    refine (State.mapEntries_get s _ k).trans ?_
    cases s.map[k] with
    | mine j c f => by_cases h : j = i <;> simp [MapEntry.finalled, h]
    | _ => rfl
  have map : (s.markFinal i).map = Vector.ofFn fun k => s.map[k].finalled i :=
    Vector.ext fun k hk => by rw [Vector.getElem_ofFn]; exact entry ⟨k, hk⟩
  rw [← map]
  rfl

/-- The record of a stream that closes, IDLE at once or CLOSING (R116). -/
def Stream.closed (r : Stream) (atOnce : Bool) : Stream :=
  { r.clearClaim with
    queue := [], state := if atOnce then .idle else .closing, held := if atOnce then [] else r.held }

theorem State.beginClose_eq {s : State} (fit : LanesFit s) (i : StreamNo) :
    s.beginClose i = s.withWork { s.work with
      freeList := s.freeList ++ s.streams[i].buffers, inTransit := s.inTransit.map (InTransit.condemned i)
      lanes := Vector.ofFn fun l => laneWithout i s.lanes[l], map := Vector.ofFn fun k => s.map[k].closed i
      claimQueue := s.claimQueue.filter (· ≠ i), streams := s.streams.set i (s.streams[i].closed false) } := by
  have fit' : LanesFit ((s.freeQueue i).condemnTransit i) := by
    rw [State.condemnTransit_eq]
    exact ⟨fit.lanesProbe, fit.probesLaned⟩
  rw [State.beginClose, State.markFinal_eq, State.leaveClaims_eq fit', State.condemnTransit_eq]
  simp only [State.freeQueue, State.modStream, State.release, State.withWork, State.work, Fin.getElem_fin,
    Vector.getElem_ofFn, Vector.getElem_set_self, Vector.set_set, MapEntry.finalled_unprobed, Stream.closed,
    Stream.clearClaim, Bool.false_eq_true, if_false]

/-- A close ends at once off the bus, and where the stream holds no slot (R116). -/
def State.closesAtOnce (s : State) (i : StreamNo) : Bool :=
  !s.anyMineOf i || !(s.station == .active || s.station == .leaving)

/-- The close of a CLAIMING or LIVE stream, field by field (R116). -/
theorem State.closeStream_eq {s : State} (fit : LanesFit s) (i : StreamNo) :
    s.closeStream i = s.withWork {
      freeList := s.freeList ++ s.streams[i].buffers, inTransit := s.inTransit.map (InTransit.condemned i)
      lanes := Vector.ofFn fun l => laneWithout i s.lanes[l], map := Vector.ofFn fun k => s.map[k].closed i
      claimQueue := s.claimQueue.filter (· ≠ i)
      streams := s.streams.set i (s.streams[i].closed (s.closesAtOnce i))
      events := eventsAfter s.events (if s.closesAtOnce i then [.streamClosed i] else []) s.cycleNumber } := by
  have ends : (!(s.beginClose i).anyMineOf i ||
      !((s.beginClose i).station == .active || (s.beginClose i).station == .leaving)) = s.closesAtOnce i := by
    rw [State.beginClose_eq fit]
    simp [State.anyMineOf, MapEntry.isMineOf_closed, State.closesAtOnce]
  simp only [State.closeStream, ends]
  rw [State.beginClose_eq fit]
  cases s.closesAtOnce i
  · rfl
  · simp only [State.modStream, State.post, State.withWork, State.work, Vector.set_set, Fin.getElem_fin,
      Vector.getElem_set_self, Stream.closed, Stream.clearClaim, State.cycleNumber, eventsAfter, if_true,
      Bool.false_eq_true, if_false, List.foldl_cons, List.foldl_nil]

/-- The close of a FAILED stream, field by field (R117). -/
theorem State.closeFailed_eq (s : State) (i : StreamNo) :
    s.closeFailed i = s.withWork { s.work with
      freeList := s.freeList ++ s.streams[i].buffers, inTransit := s.inTransit.map (InTransit.condemned i)
      streams := s.streams.set i { s.streams[i] with queue := [], state := .idle, failure := none } } := by
  simp only [State.closeFailed, State.condemnTransit_eq, State.freeQueue, State.modStream, State.release,
    State.withWork, State.work, Vector.set_set, Fin.getElem_fin, Vector.getElem_set_self]

/-! ## What a STOP does to one stream (R34, R35) -/

/-- The record of a stream after a STOP: CLOSING while it holds a slot, and IDLE otherwise. -/
def Stream.stopped (r : Stream) : Stream :=
  { r with
    state := if r.held = [] then .idle else .closing
    attempts := 0, backoff := 0, deferral := 0, shortPosted := false, queue := [], failure := none }

/-- What the laws say of one stream that a STOP reaches. -/
structure StoppableAt (s : State) (i : StreamNo) : Prop where
  fit : LanesFit s
  laned : s.streams[i].state ≠ .claiming → ∀ l : LaneNo, ∀ r ∈ s.lanes[l], r.stream ≠ i
  queued : s.streams[i].state ≠ .claiming → i ∉ s.claimQueue
  heldMine : s.anyMineOf i = false ↔ s.streams[i].held = []
  onBus : s.streams[i].held ≠ [] → s.station = .active ∨ s.station = .leaving
  final : s.streams[i].state ≠ .claiming → s.streams[i].state ≠ .live →
    ∀ (k : SlotNo) (c : Nat) (f : Bool), s.map[k] = .mine i c f → f = true
  emptied : s.streams[i].state = .idle ∨ s.streams[i].state = .closing → s.streams[i].queue = []
  clear : s.streams[i].state ≠ .claiming → s.streams[i].clearClaim = s.streams[i]
  failure : s.streams[i].state ≠ .failed → s.streams[i].failure = none
  idleHolds : s.streams[i].state = .idle ∨ s.streams[i].state = .failed → s.streams[i].held = []
  holds : s.streams[i].state = .closing ∨ s.streams[i].state = .live → s.streams[i].held ≠ []
  transit : s.streams[i].state = .idle ∨ s.streams[i].state = .closing →
    ∀ b ∈ s.inTransit, b.stream = i → b.disposal = .freeBuffer

/-- STREAM_CLOSED is posted at once for a CLAIMING stream that holds no slot (R116). -/
def Stream.endsAtStop (r : Stream) : Bool := r.state == .claiming && r.held == []

theorem Stream.endsAtStop_iff (r : Stream) : r.endsAtStop = true ↔ r.state = .claiming ∧ r.held = [] := by
  simp [Stream.endsAtStop]

theorem Stream.endsAtStop_of_held_nil {r : Stream} (h : r.held = []) : r.endsAtStop = (r.state == .claiming) := by
  rw [Stream.endsAtStop, h]
  exact Bool.and_true _

theorem Stream.closed_eq_stopped {r : Stream} {atOnce : Bool} (h : atOnce = true ↔ r.held = [])
    (hf : r.failure = none) : r.closed atOnce = r.stopped := by
  cases atOnce <;> simp_all [Stream.closed, Stream.clearClaim, Stream.stopped]

theorem Stream.failed_eq_stopped {r : Stream} (hc : r.clearClaim = r) (hh : r.held = []) :
    { r with queue := [], state := .idle, failure := none } = r.stopped := by
  rw [← hc]
  simp [Stream.stopped, Stream.clearClaim, hh]

theorem Stream.stopped_eq_self {r : Stream} (hc : r.clearClaim = r) (hq : r.queue = []) (hf : r.failure = none)
    (hs : r.state = if r.held = [] then .idle else .closing) : r.stopped = r := by
  rw [Stream.stopped, ← hs, ← hq, ← hf]
  exact hc

theorem Stream.stopped_of_held_nil {r : Stream} (h : r.held = []) :
    r.stopped = { r with
      state := .idle, held := [], attempts := 0, backoff := 0, deferral := 0, shortPosted := false, queue := []
      failure := none } := by
  simp [Stream.stopped, h]

/-- What a STOP leaves of the working part once it has reached stream `i`. -/
def State.stopAt (s : State) (i : StreamNo) : Work :=
  { freeList := s.freeList ++ s.streams[i].buffers, inTransit := s.inTransit.map (InTransit.condemned i)
    lanes := Vector.ofFn fun l => laneWithout i s.lanes[l], map := Vector.ofFn fun k => s.map[k].closed i
    claimQueue := s.claimQueue.filter (· ≠ i), streams := s.streams.set i s.streams[i].stopped
    events := eventsAfter s.events (if s.streams[i].endsAtStop then [.streamClosed i] else []) s.cycleNumber }

namespace StoppableAt

variable {s : State} {i : StreamNo}

theorem closesAtOnce_iff (h : StoppableAt s i) : s.closesAtOnce i = true ↔ s.streams[i].held = [] := by
  rw [← h.heldMine, State.closesAtOnce]
  by_cases hh : s.streams[i].held = []
  · simp [h.heldMine.mpr hh]
  · rcases h.onBus hh with hs | hs <;> simp [hs]

/-- A stream that is neither CLAIMING nor LIVE has no lane, no place in the queue and no MINE entry to mark. -/
theorem lanes_same (h : StoppableAt s i) (hc : s.streams[i].state ≠ .claiming) :
    (Vector.ofFn fun l => laneWithout i s.lanes[l]) = s.lanes := by
  refine Vector.ext fun l hl => ?_
  rw [Vector.getElem_ofFn]
  refine Option.ext fun r => ?_
  exact mem_laneWithout.trans ⟨And.left, fun hr => ⟨hr, h.laned hc ⟨l, hl⟩ r hr⟩⟩

theorem queue_same (h : StoppableAt s i) (hc : s.streams[i].state ≠ .claiming) :
    s.claimQueue.filter (· ≠ i) = s.claimQueue := by
  refine List.filter_eq_self.mpr fun j hj => ?_
  have : j ≠ i := fun he => h.queued hc (he ▸ hj)
  simpa using this

theorem map_same (h : StoppableAt s i) (hc : s.streams[i].state ≠ .claiming) (hl : s.streams[i].state ≠ .live) :
    (Vector.ofFn fun k => s.map[k].closed i) = s.map := by
  refine Vector.ext fun k hk => ?_
  rw [Vector.getElem_ofFn]
  change s.map[(⟨k, hk⟩ : SlotNo)].closed i = s.map[(⟨k, hk⟩ : SlotNo)]
  cases he : s.map[(⟨k, hk⟩ : SlotNo)] with
  | probe l j =>
    refine if_neg ?_
    rintro rfl
    obtain ⟨r, hr, -, hj⟩ := h.fit.probesLaned _ _ _ he
    exact h.laned hc l r hr hj
  | mine j c f =>
    have hf : (f || j == i) = f := by
      by_cases hj : j = i
      · subst hj; simp [h.final hc hl _ c f he]
      · simp [hj]
    rw [MapEntry.closed, hf]
  | _ => rfl

/-- What a STOP does to one stream, whatever its state. -/
theorem stopStream_eq (h : StoppableAt s i) : s.stopStream i = s.withWork (s.stopAt i) := by
  have ends (hs : s.streams[i].state = .claiming ∨ s.streams[i].state = .live) :
      s.streams[i].closed (s.closesAtOnce i) = s.streams[i].stopped ∧
        s.closesAtOnce i = s.streams[i].endsAtStop := by
    refine ⟨Stream.closed_eq_stopped h.closesAtOnce_iff (h.failure fun hf => ?_), ?_⟩
    · rw [hf] at hs; rcases hs with hs | hs <;> cases hs
    · refine Bool.eq_iff_iff.mpr (h.closesAtOnce_iff.trans ((Stream.endsAtStop_iff _).trans ?_).symm)
      exact and_iff_right_of_imp fun hh => hs.resolve_right fun hl => h.holds (.inr hl) hh
  have closes (hs : s.streams[i].state = .claiming ∨ s.streams[i].state = .live) :
      s.closeStream i = s.withWork (s.stopAt i) := by
    obtain ⟨hr, he⟩ := ends hs
    rw [State.closeStream_eq h.fit, hr, he]
    rfl
  have rest (hc : s.streams[i].state ≠ .claiming) (hl : s.streams[i].state ≠ .live) :
      s.stopAt i = { s.work with
        freeList := s.freeList ++ s.streams[i].buffers, inTransit := s.inTransit.map (InTransit.condemned i)
        streams := s.streams.set i s.streams[i].stopped } := by
    have he : s.streams[i].endsAtStop = false :=
      Bool.eq_false_iff.mpr fun he => hc ((Stream.endsAtStop_iff _).mp he).1
    rw [State.stopAt, h.lanes_same hc, h.queue_same hc, h.map_same hc hl, he]
    rfl
  have same (hs : s.streams[i].state = .idle ∨ s.streams[i].state = .closing) (hr : s.streams[i].stopped = s.streams[i]) :
      s = s.withWork (s.stopAt i) := by
    have ht : s.inTransit.map (InTransit.condemned i) = s.inTransit := by
      cases hb : s.inTransit with
      | none => rfl
      | some b =>
        have hd := h.transit hs b hb
        rw [Option.map_some, InTransit.condemned]
        split
        · rw [← hd ‹_›]
        · rfl
    rw [rest (by rcases hs with hs | hs <;> rw [hs] <;> decide) (by rcases hs with hs | hs <;> rw [hs] <;> decide), hr,
      ht, Stream.buffers, h.emptied hs]
    simp [State.withWork, State.work]
  unfold State.stopStream
  cases hs : s.streams[i].state with
  | claiming => exact closes (.inl hs)
  | live => exact closes (.inr hs)
  | failed =>
    have hc : s.streams[i].state ≠ .claiming := by rw [hs]; decide
    have hr := Stream.failed_eq_stopped (h.clear hc) (h.idleHolds (.inr hs))
    rw [rest hc (by rw [hs]; decide), State.closeFailed_eq, hr]
  | idle =>
    refine same (.inl hs) (Stream.stopped_eq_self (h.clear (by rw [hs]; decide)) (h.emptied (.inl hs))
      (h.failure (by rw [hs]; decide)) ?_)
    rw [hs, if_pos (h.idleHolds (.inl hs))]
  | closing =>
    refine same (.inr hs) (Stream.stopped_eq_self (h.clear (by rw [hs]; decide)) (h.emptied (.inr hs))
      (h.failure (by rw [hs]; decide)) ?_)
    rw [hs, if_neg (h.holds (.inl hs))]

end StoppableAt

/-! ## What a STOP does to every stream (R34, R35) -/

/-- An entry once these streams have closed. -/
def MapEntry.closedAll (done : List StreamNo) : MapEntry → MapEntry
  | .mine j c f => .mine j c (f || decide (j ∈ done))
  | .probe l j => if j ∈ done then .held none 0 else .probe l j
  | e => e

/-- The in-transit block once these streams have closed. -/
def InTransit.condemnedAll (done : List StreamNo) (b : InTransit) : InTransit :=
  if b.stream ∈ done then { b with disposal := .freeBuffer } else b

/-- What a STOP leaves of the working part once it has reached these streams. -/
def State.stopAll (s : State) (done : List StreamNo) : Work :=
  { freeList := s.freeList ++ done.flatMap fun i => s.streams[i].buffers
    inTransit := s.inTransit.map (InTransit.condemnedAll done)
    lanes := Vector.ofFn fun l => s.lanes[l].filter fun r => decide (r.stream ∉ done)
    map := Vector.ofFn fun k => s.map[k].closedAll done
    claimQueue := s.claimQueue.filter fun i => decide (i ∉ done)
    streams := Vector.ofFn fun i => if i ∈ done then s.streams[i].stopped else s.streams[i]
    events := eventsAfter s.events ((done.filter fun i => s.streams[i].endsAtStop).map .streamClosed) s.cycleNumber }

theorem State.stopAll_nil (s : State) : s.stopAll [] = s.work := by
  have hmap : (Vector.ofFn fun k : SlotNo => s.map[k].closedAll []) = s.map := by
    refine Vector.ext fun k hk => ?_
    rw [Vector.getElem_ofFn]
    change s.map[(⟨k, hk⟩ : SlotNo)].closedAll [] = s.map[(⟨k, hk⟩ : SlotNo)]
    cases s.map[(⟨k, hk⟩ : SlotNo)] <;> simp [MapEntry.closedAll]
  have htransit : s.inTransit.map (InTransit.condemnedAll []) = s.inTransit := by
    cases s.inTransit <;> simp [InTransit.condemnedAll]
  have hlane (r : Option Lane) : r.filter (fun _ => true) = r := by cases r <;> rfl
  rw [State.stopAll, hmap, htransit]
  simp [State.work, eventsAfter, hlane]

section StopAll

variable {s : State} {i : StreamNo} {done : List StreamNo}

theorem State.stopAll_stream (h : i ∉ done) : (s.stopAll done).streams[i] = s.streams[i] :=
  (Vector.getElem_ofFn i.isLt).trans (if_neg h)

theorem State.stopAll_entry (s : State) (done : List StreamNo) (k : SlotNo) :
    (s.stopAll done).map[k] = s.map[k].closedAll done := Vector.getElem_ofFn k.isLt

theorem State.mem_stopAll_lane {l : LaneNo} {r : Lane} :
    r ∈ (s.stopAll done).lanes[l] ↔ r ∈ s.lanes[l] ∧ r.stream ∉ done := by
  have hl : (s.stopAll done).lanes[l] = s.lanes[l].filter fun r => decide (r.stream ∉ done) :=
    Vector.getElem_ofFn l.isLt
  rw [hl]
  simp [Option.filter_eq_some_iff]

theorem MapEntry.closedAll_isMineOf (e : MapEntry) (done : List StreamNo) (i : StreamNo) :
    (e.closedAll done).isMineOf i = e.isMineOf i := by
  cases e with
  | probe l j => simp only [MapEntry.closedAll]; split <;> rfl
  | _ => rfl

theorem MapEntry.closedAll_probe {e : MapEntry} {l : LaneNo} {j : StreamNo} :
    e.closedAll done = .probe l j ↔ e = .probe l j ∧ j ∉ done := by
  cases e with
  | probe m k =>
    by_cases hk : k ∈ done
    · simp only [MapEntry.closedAll, if_pos hk]
      exact ⟨nofun, fun ⟨he, hj⟩ => by cases he; exact absurd hk hj⟩
    · simp only [MapEntry.closedAll, if_neg hk]
      exact ⟨fun he => ⟨he, by cases he; exact hk⟩, And.left⟩
  | _ => simp [MapEntry.closedAll]

theorem MapEntry.closedAll_mine {e : MapEntry} {j : StreamNo} {c : Nat} {f : Bool} (hj : j ∉ done)
    (h : e.closedAll done = .mine j c f) : e = .mine j c f := by
  cases e with
  | probe m k => simp only [MapEntry.closedAll] at h; split at h <;> cases h
  | mine m d g =>
    cases h
    simp [hj]
  | _ => cases h

theorem LanesFit.stopAll (fit : LanesFit s) : LanesFit (s.withWork (s.stopAll done)) := by
  refine ⟨fun l r hr => ?_, fun k l j hk => ?_⟩
  · obtain ⟨hr, hn⟩ := State.mem_stopAll_lane.mp hr
    exact (State.stopAll_entry s done r.slot).trans (MapEntry.closedAll_probe.mpr ⟨fit.lanesProbe l r hr, hn⟩)
  · obtain ⟨hk, hn⟩ := MapEntry.closedAll_probe.mp ((State.stopAll_entry s done k).symm.trans hk)
    obtain ⟨r, hr, hs, rfl⟩ := fit.probesLaned k l j hk
    exact ⟨r, State.mem_stopAll_lane.mpr ⟨hr, hn⟩, hs, rfl⟩

/-- A STOP that has reached other streams leaves a stream as it is for its own turn. -/
theorem StoppableAt.stopAll (h : StoppableAt s i) (hi : i ∉ done) :
    StoppableAt (s.withWork (s.stopAll done)) i := by
  have hs : (s.withWork (s.stopAll done)).streams[i] = s.streams[i] := State.stopAll_stream hi
  have hmine : (s.withWork (s.stopAll done)).anyMineOf i = s.anyMineOf i := by
    refine congrArg (List.any allSlots) (funext fun k => ?_)
    rw [State.withWork_map, State.stopAll_entry, MapEntry.closedAll_isMineOf]
  refine
    { fit := h.fit.stopAll
      laned := fun hc l r hr => h.laned (hs ▸ hc) l r (State.mem_stopAll_lane.mp hr).1
      queued := fun hc hq => h.queued (hs ▸ hc) (List.mem_filter.mp hq).1
      heldMine := by rw [hmine, hs]; exact h.heldMine
      onBus := by rw [hs, State.withWork_station]; exact h.onBus
      final := fun hc hl k c f hk => ?_
      emptied := by rw [hs]; exact h.emptied
      clear := by rw [hs]; exact h.clear
      failure := by rw [hs]; exact h.failure
      idleHolds := by rw [hs]; exact h.idleHolds
      holds := by rw [hs]; exact h.holds
      transit := fun hic b hb hbi => ?_ }
  · exact h.final (hs ▸ hc) (hs ▸ hl) k c f (MapEntry.closedAll_mine hi ((State.stopAll_entry s done k).symm.trans hk))
  · obtain ⟨d, hd, rfl⟩ := Option.map_eq_some_iff.mp hb
    unfold InTransit.condemnedAll at hbi ⊢
    split
    · rfl
    · rw [if_neg ‹_›] at hbi
      exact h.transit (hs ▸ hic) d hd hbi

/-- One more stream reached. -/
theorem State.stopAll_concat (s : State) (hi : i ∉ done) :
    (s.withWork (s.stopAll done)).stopAt i = s.stopAll (done ++ [i]) := by
  have hs : (s.withWork (s.stopAll done)).streams[i] = s.streams[i] := State.stopAll_stream hi
  have hfree : (s.stopAll done).freeList ++ s.streams[i].buffers = (s.stopAll (done ++ [i])).freeList := by
    simp [State.stopAll]
  have htransit : (s.stopAll done).inTransit.map (InTransit.condemned i) = (s.stopAll (done ++ [i])).inTransit := by
    refine (Option.map_map ..).trans (congrArg (s.inTransit.map ·) (funext fun b => ?_))
    have hb : (b.condemnedAll done).stream = b.stream := by unfold InTransit.condemnedAll; split <;> rfl
    rw [Function.comp_apply, InTransit.condemned, hb]
    by_cases h2 : b.stream = i
    · simp [InTransit.condemnedAll, h2, hi]
    · by_cases h1 : b.stream ∈ done <;> simp [InTransit.condemnedAll, h1, h2]
  have hlanes : (Vector.ofFn fun l : LaneNo => laneWithout i (s.stopAll done).lanes[l]) =
      (s.stopAll (done ++ [i])).lanes := by
    refine Vector.ext fun l hl => ?_
    rw [Vector.getElem_ofFn]
    refine Option.ext fun r => ?_
    refine mem_laneWithout.trans ((and_congr_left' State.mem_stopAll_lane).trans
      (Iff.trans ?_ (State.mem_stopAll_lane (l := ⟨l, hl⟩)).symm))
    simp [and_assoc]
  have hmap : (Vector.ofFn fun k : SlotNo => (s.stopAll done).map[k].closed i) = (s.stopAll (done ++ [i])).map := by
    refine congrArg Vector.ofFn (funext fun k => ?_)
    rw [State.stopAll_entry]
    cases s.map[k] with
    | mine j c f => simp [MapEntry.closedAll, MapEntry.closed, Bool.or_assoc, beq_eq_decide]
    | probe l j =>
      by_cases h2 : j = i
      · simp [MapEntry.closedAll, MapEntry.closed, h2, hi]
      · by_cases h1 : j ∈ done <;> simp [MapEntry.closedAll, MapEntry.closed, h1, h2]
    | _ => rfl
  have hqueue : (s.stopAll done).claimQueue.filter (· ≠ i) = (s.stopAll (done ++ [i])).claimQueue := by
    simp [State.stopAll, List.filter_filter, and_comm]
  have hstreams : (s.stopAll done).streams.set i s.streams[i].stopped = (s.stopAll (done ++ [i])).streams := by
    refine Vector.ext fun j hj => ?_
    by_cases he : i = ⟨j, hj⟩
    · subst he; simp [State.stopAll]
    · have hne : i.val ≠ j := fun h => he (Fin.ext h)
      simp [State.stopAll, hne, Ne.symm he]
  have hevents : eventsAfter (s.stopAll done).events (if s.streams[i].endsAtStop then [.streamClosed i] else [])
      s.cycleNumber = (s.stopAll (done ++ [i])).events := by
    refine (eventsAfter_append ..).symm.trans (congrArg (eventsAfter s.events · s.cycleNumber) ?_)
    rw [List.filter_append, List.map_append, List.filter_cons]
    cases s.streams[i].endsAtStop <;> rfl
  rw [State.stopAt, hs]
  simp only [State.withWork_freeList, State.withWork_inTransit, State.withWork_lanes,
    State.withWork_map, State.withWork_claimQueue, State.withWork_streams, State.withWork_events,
    State.withWork_cycleNumber, hfree, htransit, hlanes, hmap, hqueue, hstreams, hevents]

end StopAll

/-- A STOP reaches every stream once. -/
theorem State.foldl_stopStream {s : State} (h : ∀ i, StoppableAt s i) (es : List StreamNo) (once : es.Nodup) :
    es.foldl State.stopStream s = s.withWork (s.stopAll es) := by
  induction es using List.reverseRecOn with
  | nil => rw [State.stopAll_nil]; rfl
  | append_singleton es i ih =>
    obtain ⟨hes, -, hi⟩ := List.nodup_append.mp once
    have hi : i ∉ es := fun he => hi i he i (by simp) rfl
    rw [List.foldl_append, ih hes]
    change (s.withWork (s.stopAll es)).stopStream i = _
    rw [((h i).stopAll hi).stopStream_eq, State.stopAll_concat s hi, State.withWork_withWork]

/-! ## A STOP in a legal state -/

theorem MapEntry.isMineOf_iff (e : MapEntry) (i : StreamNo) : e.isMineOf i = true ↔ ∃ c f, e = .mine i c f := by
  cases e with
  | mine j c f => exact beq_iff_eq.trans ⟨fun h => ⟨c, f, by rw [h]⟩, fun ⟨_, _, h⟩ => by cases h; rfl⟩
  | _ => simp [MapEntry.isMineOf]

theorem State.anyMineOf_eq_false {s : State} {i : StreamNo} (streams : StreamsLegal s) :
    s.anyMineOf i = false ↔ s.streams[i].held = [] := by
  rw [State.anyMineOf, List.any_eq_false, List.eq_nil_iff_forall_not_mem]
  exact ⟨fun h k hk => h k (List.mem_finRange k) (((streams.each i).heldMine k).mp hk),
    fun h k _ hk => h k (((streams.each i).heldMine k).mpr hk)⟩

theorem Stream.clearClaim_eq_self {r : Stream}
    (h : r.attempts = 0 ∧ r.backoff = 0 ∧ r.deferral = 0 ∧ r.shortPosted = false) : r.clearClaim = r := by
  obtain ⟨ha, hb, hd, hp⟩ := h
  cases r
  simp_all [Stream.clearClaim]

theorem StoppableAt.of_legal {s : State} (legal : Legal s) (i : StreamNo) : StoppableAt s i :=
  have stream := legal.streams.each i
  { fit := .of_claims legal.claims
    laned := fun hc l r hr hi => hc (hi ▸ (legal.claims.lanedClaims l r hr).1)
    queued := fun hc hq => hc (legal.claims.queuedClaims i hq).1
    heldMine := State.anyMineOf_eq_false legal.streams
    onBus := fun hh => by
      obtain ⟨k, hk⟩ := List.exists_mem_of_ne_nil _ hh
      have hm := (stream.heldMine k).mp hk
      have he := legal.map k
      cases hs : s.map[k] <;> simp_all [MapEntry.isMineOf, entryLegal]
    final := fun hc hl k c f hk => by
      have hheld : k ∈ s.streams[i].held := (stream.heldMine k).mpr (by rw [hk]; simp [MapEntry.isMineOf])
      have hclosing : s.streams[i].state = .closing := by
        cases hs : s.streams[i].state with
        | closing => rfl
        | claiming => exact absurd hs hc
        | live => exact absurd hs hl
        | idle => exact absurd (stream.idleHolds (.inl hs)) (List.ne_nil_of_mem hheld)
        | failed => exact absurd (stream.idleHolds (.inr hs)) (List.ne_nil_of_mem hheld)
      have hf := stream.closingFinal k hheld
      rw [hk, hclosing] at hf
      exact hf
    emptied := legal.pool.emptyWhenClosed i
    clear := fun hc => Stream.clearClaim_eq_self (stream.claimFieldsClear hc)
    failure := stream.failure_none
    idleHolds := stream.idleHolds
    holds := fun h => h.elim stream.closingHolds stream.live_holds
    transit := fun h b hb hi => by
      cases hd : b.disposal with
      | freeBuffer => rfl
      | returnToQueue =>
        subst hi
        obtain ⟨hidle, hclosing⟩ := legal.pool.transitReturns b hb hd
        exact (h.elim hidle hclosing).elim }

/-- STATION_STATE first: the streams stop in LEAVING as they would have in ACTIVE. -/
theorem StoppableAt.leaving {s : State} {i : StreamNo} (h : StoppableAt s i) :
    StoppableAt (s.enter .leaving .stop) i :=
  { h with
    fit := ⟨h.fit.lanesProbe, h.fit.probesLaned⟩
    onBus := fun _ => .inr rfl }

/-- Off ACTIVE and LEAVING no stream holds a slot. -/
theorem held_nil_of_station {s : State} (legal : Legal s) (hs : s.station ≠ .active ∧ s.station ≠ .leaving)
    (i : StreamNo) : s.streams[i].held = [] := by
  by_contra hh
  exact ((StoppableAt.of_legal legal i).onBus hh).elim hs.1 hs.2

/-- The streams stop off the timeline as they would have before, where they hold no slot. -/
theorem StoppableAt.cleared {s u : State} {i : StreamNo} (h : StoppableAt s i) (hh : s.streams[i].held = [])
    (streams : u.streams = s.streams) (transit : u.inTransit = s.inTransit) (queue : u.claimQueue = [])
    (lanes : ∀ l : LaneNo, u.lanes[l] = none) (map : ∀ k : SlotNo, u.map[k] = .unknown 0) : StoppableAt u i where
  fit := ⟨fun l r hr => (nomatch (lanes l).symm.trans hr), fun k l j hk => (nomatch (map k).symm.trans hk)⟩
  laned := fun _ l r hr => (nomatch (lanes l).symm.trans hr)
  queued := fun _ => queue ▸ List.not_mem_nil
  heldMine := iff_of_true (List.any_eq_false.mpr fun k _ => by rw [map]; exact Bool.false_ne_true) (streams ▸ hh)
  onBus := fun hne => absurd hh (streams ▸ hne)
  final := fun _ _ k c f hk => (nomatch (map k).symm.trans hk)
  emptied := streams ▸ h.emptied
  clear := streams ▸ h.clear
  failure := streams ▸ h.failure
  idleHolds := streams ▸ h.idleHolds
  holds := streams ▸ h.holds
  transit := by rw [streams, transit]; exact h.transit

/-- The buffers in all transmit queues, stream by stream. -/
theorem State.txBuffers_eq (s : State) : s.txBuffers = allStreams.flatMap fun i => s.streams[i].buffers := by
  have h : s.streams.toList = allStreams.map fun i => s.streams[i] := by
    conv_lhs => rw [← Vector.ofFn_getElem (xs := s.streams)]
    rw [Vector.toList_ofFn, List.ofFn_eq_map]
    rfl
  rw [State.txBuffers, h, List.flatMap_map]

/-! ### What a STOP leaves once it has reached every stream -/

theorem mem_allStreams (i : StreamNo) : i ∈ allStreams := List.mem_finRange i

theorem State.stopAll_every_queue (s : State) : (s.stopAll allStreams).claimQueue = [] :=
  List.filter_eq_nil_iff.mpr fun i _ => by simp [mem_allStreams]

theorem State.stopAll_every_freeList (s : State) : (s.stopAll allStreams).freeList = s.freeList ++ s.txBuffers := by
  rw [State.txBuffers_eq]
  rfl

theorem State.stopAll_every_transit (s : State) :
    (s.stopAll allStreams).inTransit = s.inTransit.map fun b => { b with disposal := .freeBuffer } :=
  congrArg (s.inTransit.map ·) (funext fun b => if_pos (mem_allStreams b.stream))

theorem State.stopAll_every_stream (s : State) (i : StreamNo) :
    (s.stopAll allStreams).streams[i] = s.streams[i].stopped :=
  (Vector.getElem_ofFn i.isLt).trans (if_pos (mem_allStreams i))

theorem State.stopAll_every_lane (s : State) (l : LaneNo) : (s.stopAll allStreams).lanes[l] = none := by
  refine Option.eq_none_iff_forall_not_mem.mpr fun r hr => ?_
  exact (State.mem_stopAll_lane.mp hr).2 (List.mem_finRange _)

theorem State.stopAll_every_entry (s : State) (k : SlotNo) :
    (s.stopAll allStreams).map[k] = match s.map[k] with
      | .mine i c _ => .mine i c true
      | .probe _ _ => .held none 0
      | e => e := by
  rw [State.stopAll_entry]
  cases s.map[k] <;> simp [MapEntry.closedAll, mem_allStreams]

theorem State.stopStreams_eq {s : State} (h : ∀ i, StoppableAt s i) :
    s.stopStreams = s.withWork (s.stopAll allStreams) := State.foldl_stopStream h allStreams (List.nodup_finRange 8)

/-- A STOP before ACTIVE closes the streams in READY, where none holds a slot (R34). -/
theorem State.stopEarly_eq {s : State} (legal : Legal s) (off : s.station ≠ .active ∧ s.station ≠ .leaving) :
    s.stopEarly = (s.arriveReady .stop).withWork ((s.arriveReady .stop).stopAll allStreams) :=
  State.stopStreams_eq fun i => (StoppableAt.of_legal legal i).cleared (held_nil_of_station legal off i)
    (by rw [State.arriveReady_eq]) (by rw [State.arriveReady_eq]) (by rw [State.arriveReady_eq])
    (fun l => Vector.getElem_replicate l.isLt) fun k => Vector.getElem_ofFn k.isLt

/-- What a STOP in ACTIVE leaves before the check of whether the station has left (R35). -/
def State.stopped (s : State) : State :=
  { (s.enter .leaving .stop).withWork ((s.enter .leaving .stop).stopAll allStreams) with drawnPosition := none }

theorem State.stopActive_eq {s : State} (legal : Legal s) :
    s.stopActive = if s.carriesBeaconOrClaim then s.stopped else s.stopped.checkLeft :=
  congrArg (fun u : State =>
    let t := { u with drawnPosition := none }
    if t.carriesBeaconOrClaim then t else t.checkLeft)
    (State.stopStreams_eq fun i => (StoppableAt.of_legal legal i).leaving)

theorem State.stopped_entry (s : State) (k : SlotNo) :
    s.stopped.map[k] = match s.map[k] with
      | .mine i c _ => .mine i c true
      | .probe _ _ => .held none 0
      | e => e := State.stopAll_every_entry (s.enter .leaving .stop) k

theorem State.stopped_stream (s : State) (i : StreamNo) : s.stopped.streams[i] = s.streams[i].stopped :=
  State.stopAll_every_stream (s.enter .leaving .stop) i

theorem State.stopped_lane (s : State) (l : LaneNo) : s.stopped.lanes[l] = none :=
  State.stopAll_every_lane (s.enter .leaving .stop) l

theorem State.stopped_freeList (s : State) : s.stopped.freeList = s.freeList ++ s.txBuffers :=
  State.stopAll_every_freeList (s.enter .leaving .stop)

theorem State.stopped_transit (s : State) :
    s.stopped.inTransit = s.inTransit.map fun b => { b with disposal := .freeBuffer } :=
  State.stopAll_every_transit (s.enter .leaving .stop)

theorem State.stopped_events (s : State) :
    s.stopped.events = eventsAfter s.events (.stationState .leaving .stop ::
      (allStreams.filter fun i => s.streams[i].endsAtStop).map .streamClosed) s.cycleNumber := rfl

theorem State.stopped_eq (s : State) :
    s.stopped = { s with
      station := .leaving, drawnPosition := none, claimQueue := [], lanes := s.stopped.lanes, map := s.stopped.map
      streams := s.stopped.streams, freeList := s.freeList ++ s.txBuffers
      inTransit := s.inTransit.map fun b => { b with disposal := .freeBuffer }
      events := eventsAfter s.events (.stationState .leaving .stop ::
        (allStreams.filter fun i => s.streams[i].endsAtStop).map .streamClosed) s.cycleNumber } := by
  rw [← State.stopped_freeList, ← State.stopped_transit, ← State.stopped_events,
    ← State.stopAll_every_queue (s.enter .leaving .stop)]
  rfl

end Sys2Proof.Machine

namespace Sys2Proof.Proofs

open Sys2Proof.Machine Sys2Proof.Safety

/-- Settles O9: the streams hold no slot, so that each ends at once. -/
theorem stopBeforeActiveArrivesInReady : Obligations.StopBeforeActiveArrivesInReady := by
  intro s legal takes hs
  have off : s.station ≠ .active ∧ s.station ≠ .leaving := by rcases hs with hs | hs <;> rw [hs] <;> decide
  have hheld := held_nil_of_station legal off
  have htransit : s.inTransit = none :=
    Option.eq_none_iff_forall_not_mem.mpr fun b hb => (legal.pool.transitOnTimeline b hb).elim off.1 off.2
  have hserve : s.stopRequest = s.stopEarly.accept := by
    rcases hs with hs | hs <;> simp only [State.stopRequest, hs]
  have hmap (k : SlotNo) : (s.arriveReady .stop).map[k] = .unknown 0 := Vector.getElem_ofFn k.isLt
  have hstreams : (s.arriveReady .stop).streams = s.streams := by rw [State.arriveReady_eq]
  have hsubs : (s.arriveReady .stop).subs = Vector.ofFn fun e => s.subs[e].rewait := by
    rw [State.arriveReady_eq]
  have hevents := congrArg (fun p => eventsAfter s.events (.stationState .ready .stop ::
    ((List.finRange 8).filter p).map .streamClosed) none) (funext fun i => Stream.endsAtStop_of_held_nil (hheld i))
  refine ⟨s.stopEarly, State.request_replies takes hserve, ?_⟩
  rw [State.stopEarly_eq legal off, ← hevents]
  refine ⟨?_, fun l => ?_, fun k => ?_, fun i => ?_, fun e => ?_⟩
  · simp only [State.withWork, State.stopAll_every_queue, State.stopAll_every_freeList, State.stopAll_every_transit]
    rw [State.arriveReady_eq]
    simp only [htransit]
    rfl
  · rw [State.withWork_lanes, State.stopAll_every_lane]
  · rw [State.withWork_map, State.stopAll_every_entry, hmap]
  · rw [State.withWork_streams, State.stopAll_every_stream, hstreams, Stream.stopped_of_held_nil (hheld i)]
  · rw [State.withWork_subs, hsubs]
    exact (Vector.getElem_ofFn e.isLt).trans (Subscription.rewait_eq _)

/-- Settles O10: the streams stop in LEAVING, and the station goes on to READY where it has nothing to finish. -/
theorem stopInActiveLeavesTheBus : Obligations.StopInActiveLeavesTheBus := by
  intro s legal takes hs
  have hserve : s.stopRequest = s.stopActive.accept := by simp only [State.stopRequest, hs]
  refine ⟨fun h => ⟨s.stopActive, State.request_replies takes hserve, ?_⟩,
    fun hm hc => ⟨s.stopActive, State.request_replies takes hserve, ?_⟩⟩
  · have stays : s.stopActive = s.stopped := by
      rw [State.stopActive_eq legal]
      split
      · rfl
      · obtain ⟨k, i, c, f, hk⟩ := h.resolve_right ‹_›
        refine State.checkLeft_stays (.inr ⟨k, i, c, true, ?_⟩)
        rw [State.stopped_entry, hk]
    rw [stays]
    exact ⟨s.stopped_eq, s.stopped_lane, s.stopped_entry, s.stopped_stream⟩
  · have none_held (i : StreamNo) : s.streams[i].held = [] := by
      rw [← State.anyMineOf_eq_false legal.streams, State.anyMineOf, List.any_eq_false]
      intro k _ he
      obtain ⟨c, f, hk⟩ := (MapEntry.isMineOf_iff ..).mp he
      exact hm k i c f hk
    have no_transit : s.inTransit = none := by
      refine Option.eq_none_iff_forall_not_mem.mpr fun b hb => ?_
      obtain ⟨c, f, hk⟩ := (MapEntry.isMineOf_iff ..).mp (legal.pool.transitMine b hb)
      exact hm _ _ c f hk
    have still_none (k : SlotNo) (i : StreamNo) (c : Nat) (f : Bool) : s.stopped.map[k] ≠ .mine i c f := by
      rw [State.stopped_entry]
      cases hk : s.map[k] with
      | mine j d g => exact absurd hk (hm k j d g)
      | _ => nofun
    have leaves : s.stopActive = s.stopped.checkLeft := by
      rw [State.stopActive_eq legal, hc]
      exact if_neg Bool.false_ne_true
    obtain ⟨he, lanes, map, subs⟩ := State.checkLeft_arrives (s := s.stopped) rfl still_none
    rw [← leaves] at he lanes map subs
    have hstreams : s.stopActive.streams = s.stopped.streams := by rw [he]
    refine ⟨?_, lanes, map, fun i => ?_, subs⟩
    · have hevents := congrArg (fun p => eventsAfter s.events (.stationState .leaving .stop ::
        ((List.finRange 8).filter p).map .streamClosed) s.cycleNumber)
        (funext fun i => Stream.endsAtStop_of_held_nil (none_held i))
      rw [hstreams, ← hevents]
      refine he.trans ?_
      rw [State.stopped_freeList, State.stopped_transit, no_transit, Option.map_none, State.stopped_events, ← no_transit]
      rfl
    · rw [hstreams, State.stopped_stream, Stream.stopped_of_held_nil (none_held i)]

end Sys2Proof.Proofs
end

section
/-! PROOF. What every operation keeps of the configuration, the link, the event queue, the subscriptions and the pool:
O12, and the part of O60 about these blocks. -/

namespace Sys2Proof.Safety

open Sys2Proof.Machine

/-! ## The laws of the event queue -/

theorem EventsLegal.congr {s t : State} (h : EventsLegal s) (he : t.events = s.events) : EventsLegal t := by
  obtain ⟨h1, h2, h3⟩ := h
  rw [← he] at h1 h2 h3
  exact ⟨h1, h2, h3⟩

/-- An arriving record keeps the laws of the event queue (R154). -/
theorem EventsLegal.enqueue {s t : State} (h : EventsLegal s) {r : EventRecord}
    (he : t.events = enqueueEvent s.events r) : EventsLegal t := by
  rcases enqueueEvent_cases s.events r with ⟨hq, -⟩ | ⟨hq, hl, ho⟩ | ⟨hq, hl, ho⟩ <;> rw [hq] at he
  · exact h.congr he
  · refine ⟨?_, ?_, fun hf => ?_⟩
    · rw [he, List.length_append]; exact hl.le
    · rw [he, List.dropLast_concat]; exact ho
    · rw [he, List.length_append] at hf; exact absurd hf hl.ne
  · have hlen : s.events.length + 1 ≤ Config.eventRecords := by
      refine Nat.lt_of_le_of_ne h.capacity fun hf => ?_
      have hlast := h.fullByOverflow hf
      cases hg : s.events.getLast? with
      | none => simp [hg] at hlast
      | some x =>
        rw [hg] at hlast
        exact ho x (List.mem_of_getLast? hg) (Option.some.inj hlast)
    refine ⟨?_, ?_, fun _ => ?_⟩
    · rw [he, List.length_append]; exact hlen
    · rw [he, List.dropLast_concat]; exact ho
    · rw [he, List.getLast?_concat]; rfl

end Sys2Proof.Safety

namespace Sys2Proof.Machine

open Sys2Proof.Safety

/-! ## Events posted -/

/-- The event queue `q'` is `q` after some records arrived (R154). -/
def Posts (q q' : List EventRecord) : Prop := ∃ rs : List EventRecord, q' = rs.foldl enqueueEvent q

theorem Posts.refl (q : List EventRecord) : Posts q q := ⟨[], rfl⟩

theorem Posts.of_eq {a b : List EventRecord} (h : b = a) : Posts a b := ⟨[], h⟩

theorem Posts.one (q : List EventRecord) (r : EventRecord) : Posts q (enqueueEvent q r) := ⟨[r], rfl⟩

theorem Posts.trans {a b c : List EventRecord} (h : Posts a b) (k : Posts b c) : Posts a c := by
  obtain ⟨rs, rfl⟩ := h
  obtain ⟨qs, rfl⟩ := k
  exact ⟨rs ++ qs, List.foldl_append.symm⟩

/-- A record that has arrived stays where it is. -/
theorem Posts.isPrefix {a b : List EventRecord} (h : Posts a b) : a <+: b := by
  obtain ⟨rs, rfl⟩ := h
  induction rs generalizing a with
  | nil => exact List.prefix_rfl
  | cons r rs ih => exact (enqueueEvent_prefix a r).trans ih


/-! ## One subscription record -/

theorem zero_lt_lease : 0 < Config.lease := by decide

/-- What the laws say of one subscription record (R125 to R127). -/
structure Subscription.Fits (r : Subscription) : Prop where
  queueRoom : r.queue.length ≤ Config.rxBlocks
  quietRange : r.quietCount < Config.lease
  quietOnlyActive : r.state ≠ .active → r.quietCount = 0
  idleEmpty : r.state = .idle → r.queue = [] ∧ r.expected = none ∧ r.presence = false
  noExpectation : r.state = .waiting ∨ r.state = .ended → r.expected = none
  sourceNamed : r.state ≠ .idle → r.source ≠ 0

/-- The record `r'` follows the same remote stream as `r`, keeps its laws, and queues what it did, with more behind. -/
structure Subscription.Keeps (r r' : Subscription) : Prop where
  fits : r.Fits → r'.Fits
  idle : r'.state = .idle ↔ r.state = .idle
  source : r'.source = r.source
  tag : r'.tag = r.tag
  queue : r.queue <+: r'.queue

theorem Subscription.Keeps.refl (r : Subscription) : r.Keeps r := ⟨id, Iff.rfl, rfl, rfl, List.prefix_rfl⟩

theorem Subscription.Keeps.trans {a b c : Subscription} (h : a.Keeps b) (k : b.Keeps c) : a.Keeps c :=
  ⟨fun f => k.fits (h.fits f), k.idle.trans h.idle, k.source.trans h.source, k.tag.trans h.tag, h.queue.trans k.queue⟩

theorem subsLegal_iff (s : State) :
    SubsLegal s ↔ (∀ e : EntryNo, s.subs[e].Fits) ∧
      ∀ d e : EntryNo, d ≠ e → s.subs[d].state ≠ .idle → s.subs[e].state ≠ .idle →
        (s.subs[d].source, s.subs[d].tag) ≠ (s.subs[e].source, s.subs[e].tag) :=
  ⟨fun h => ⟨fun e => ⟨h.queueRoom e, h.quietRange e, h.quietOnlyActive e, h.idleEmpty e, h.noExpectation e,
    h.sourceNamed e⟩, h.pairsDiffer⟩,
   fun ⟨h, hp⟩ => ⟨fun e => (h e).queueRoom, fun e => (h e).quietRange, fun e => (h e).quietOnlyActive,
    fun e => (h e).idleEmpty, fun e => (h e).noExpectation, fun e => (h e).sourceNamed, hp⟩⟩

/-- The table keeps its laws where every record keeps its own. -/
theorem subsLegal_of_keeps {s t : State} (h : SubsLegal s) (k : ∀ e : EntryNo, s.subs[e].Keeps t.subs[e]) :
    SubsLegal t := by
  obtain ⟨fits, pairs⟩ := (subsLegal_iff s).mp h
  refine (subsLegal_iff t).mpr ⟨fun e => (k e).fits (fits e), fun d e hde hd he => ?_⟩
  rw [(k d).source, (k d).tag, (k e).source, (k e).tag]
  exact pairs d e hde (fun hi => hd ((k d).idle.mpr hi)) fun hi => he ((k e).idle.mpr hi)

namespace Subscription.Keeps

variable {r : Subscription}

theorem rewait : r.Keeps r.rewait := by
  unfold Subscription.rewait
  cases hs : r.state with
  | idle => exact .refl r
  | _ =>
    refine ⟨fun f => ⟨f.queueRoom, zero_lt_lease, fun _ => rfl, nofun, fun _ => rfl, fun _ => ?_⟩, ?_, rfl, rfl,
      List.prefix_rfl⟩
    · exact f.sourceNamed (by rw [hs]; decide)
    · rw [hs]; exact ⟨nofun, nofun⟩

theorem hitPresence (h : r.state ≠ .idle) : r.Keeps { r with presence := true } :=
  ⟨fun f => ⟨f.queueRoom, f.quietRange, f.quietOnlyActive, fun hi => absurd hi h, f.noExpectation, f.sourceNamed⟩,
    Iff.rfl, rfl, rfl, List.prefix_rfl⟩

theorem ended (h : r.state ≠ .idle) : r.Keeps { r with state := .ended, expected := none, quietCount := 0 } :=
  ⟨fun f => ⟨f.queueRoom, zero_lt_lease, fun _ => rfl, nofun, fun _ => rfl, fun _ => f.sourceNamed h⟩,
    ⟨nofun, fun hi => absurd hi h⟩, rfl, rfl, List.prefix_rfl⟩

theorem counted (ha : r.state = .active) (hn : r.quietCount + 1 < Config.lease) :
    r.Keeps { r with quietCount := r.quietCount + 1 } :=
  ⟨fun f => ⟨f.queueRoom, hn, fun hne => absurd ha hne, f.idleEmpty, f.noExpectation, f.sourceNamed⟩, Iff.rfl, rfl, rfl,
    List.prefix_rfl⟩

theorem stale (ha : r.state = .active) : r.Keeps { r with state := .stale, quietCount := 0 } :=
  ⟨fun f => ⟨f.queueRoom, zero_lt_lease, fun _ => rfl, nofun, nofun, fun _ => f.sourceNamed (by rw [ha]; decide)⟩,
    ⟨nofun, fun hi => nomatch ha.symm.trans hi⟩, rfl, rfl, List.prefix_rfl⟩

theorem quiet : r.Keeps { r with quietCount := 0, presence := false } :=
  ⟨fun f => ⟨f.queueRoom, zero_lt_lease, fun _ => rfl, fun hi => ⟨(f.idleEmpty hi).1, (f.idleEmpty hi).2.1, rfl⟩,
    f.noExpectation, f.sourceNamed⟩, Iff.rfl, rfl, rfl, List.prefix_rfl⟩

end Subscription.Keeps

/-! ## What every operation keeps -/

/-- From `s` to `t` the configuration and the link are the same, the event queue has taken records only, each
subscription keeps its laws and queue, and each buffer is in as many places as it was. -/
structure Conserves (s t : State) : Prop where
  config : t.config = s.config
  resetHeld : t.resetHeld = s.resetHeld
  selectLow : t.selectLow = s.selectLow
  link : t.link = s.link
  events : Posts s.events t.events
  subs : ∀ e : EntryNo, s.subs[e].Keeps t.subs[e]
  buffers : ∀ b : BufferNo, t.buffers.count b = s.buffers.count b

theorem Conserves.refl (s : State) : Conserves s s := ⟨rfl, rfl, rfl, rfl, .refl _, fun _ => .refl _, fun _ => rfl⟩

theorem Conserves.trans {s t u : State} (h : Conserves s t) (k : Conserves t u) : Conserves s u :=
  ⟨k.config.trans h.config, k.resetHeld.trans h.resetHeld, k.selectLow.trans h.selectLow, k.link.trans h.link,
    h.events.trans k.events, fun e => (h.subs e).trans (k.subs e), fun b => (k.buffers b).trans (h.buffers b)⟩

/-- The blocks of the pool, by where they are. -/
theorem State.buffers_count (s : State) (b : BufferNo) :
    s.buffers.count b = s.freeList.count b + s.txBuffers.count b +
      (s.inTransit.toList.map (·.block.buffer)).count b + s.rxBuffers.count b := by
  simp [State.buffers, List.count_append, Nat.add_assoc]

/-- The blocks that `Conserves` speaks of. -/
structure Store where
  config    : Configuration
  resetHeld : Bool
  selectLow : Bool
  link      : Link
  events    : List EventRecord
  subs      : Vector Subscription 16
  freeList  : List BufferNo
  streams   : Vector Stream 8
  inTransit : Option InTransit

def State.store (s : State) : Store :=
  { config := s.config, resetHeld := s.resetHeld, selectLow := s.selectLow, link := s.link, events := s.events
    subs := s.subs, freeList := s.freeList, streams := s.streams, inTransit := s.inTransit }

/-- An operation that touches none of these blocks. -/
theorem Conserves.untouched {s t : State} (h : t.store = s.store) : Conserves s t where
  config := congrArg Store.config h
  resetHeld := congrArg Store.resetHeld h
  selectLow := congrArg Store.selectLow h
  link := congrArg Store.link h
  events := .of_eq (congrArg Store.events h)
  subs e := by rw [show t.subs = s.subs from congrArg Store.subs h]; exact .refl _
  buffers b := by
    have hb : t.buffers = s.buffers := by
      unfold State.buffers State.txBuffers State.rxBuffers
      rw [show t.freeList = s.freeList from congrArg Store.freeList h, show t.subs = s.subs from congrArg Store.subs h,
        show t.streams = s.streams from congrArg Store.streams h,
        show t.inTransit = s.inTransit from congrArg Store.inTransit h]
    rw [hb]

theorem Conserves.foldl {α : Type} {f : State → α → State} (h : ∀ s a, Conserves s (f s a)) (l : List α) (s : State) :
    Conserves s (l.foldl f s) := by
  induction l generalizing s with
  | nil => exact .refl s
  | cons a l ih => exact (h s a).trans (ih _)

/-! ### Tables and events -/

theorem State.post_conserves (s : State) (e : Event) : Conserves s (s.post e) :=
  ⟨rfl, rfl, rfl, rfl, .one _ _, fun _ => .refl _, fun _ => rfl⟩

theorem State.postAll_conserves (s : State) (es : List Event) : Conserves s (s.postAll es) := .foldl State.post_conserves es s

/-- A change of one stream record that keeps its queue. -/
theorem State.modStream_conserves (s : State) (i : StreamNo) (f : Stream → Stream)
    (h : (f s.streams[i]).queue = s.streams[i].queue) : Conserves s (s.modStream i f) := by
  refine ⟨rfl, rfl, rfl, rfl, .refl _, fun _ => .refl _, fun b => ?_⟩
  have hb := s.modStream_txBuffers i f b
  rw [show (f s.streams[i]).buffers = s.streams[i].buffers from congrArg (List.map _) h] at hb
  rw [State.buffers_count, State.buffers_count, Nat.add_right_cancel hb]
  rfl

/-- A change of every stream record that keeps each queue. -/
theorem State.mapStreams_conserves (s : State) (f : StreamNo → Stream → Stream)
    (h : ∀ i : StreamNo, (f i s.streams[i]).queue = s.streams[i].queue) : Conserves s (s.mapStreams f) := by
  refine ⟨rfl, rfl, rfl, rfl, .refl _, fun _ => .refl _, fun b => ?_⟩
  rw [State.buffers_count, State.buffers_count, s.mapStreams_txBuffers f h]
  rfl

theorem State.modSub_buffers (s : State) (e : EntryNo) (f : Subscription → Subscription)
    (hq : (f s.subs[e]).queue = s.subs[e].queue) (b : BufferNo) : (s.modSub e f).buffers.count b = s.buffers.count b := by
  have hb := s.modSub_rxBuffers e f b
  rw [show (f s.subs[e]).buffers = s.subs[e].buffers from congrArg (List.map _) hq] at hb
  rw [State.buffers_count, State.buffers_count, Nat.add_right_cancel hb]
  rfl

/-- A change of one subscription record that keeps its laws and its queue. -/
theorem State.modSub_conserves (s : State) (e : EntryNo) (f : Subscription → Subscription)
    (h : s.subs[e].Keeps (f s.subs[e])) (hq : (f s.subs[e]).queue = s.subs[e].queue) : Conserves s (s.modSub e f) := by
  refine ⟨rfl, rfl, rfl, rfl, .refl _, fun d => ?_, s.modSub_buffers e f hq⟩
  rw [State.modSub_get]
  split
  · rename_i he; exact he ▸ h
  · exact .refl _

theorem State.rewaits_conserves (s : State) : Conserves s (s.mapSubs Subscription.rewait) := by
  refine ⟨s.mapSubs_config _, s.mapSubs_resetHeld _, s.mapSubs_selectLow _, s.mapSubs_link _,
    Posts.of_eq (s.mapSubs_events _), fun e => ?_, fun b => ?_⟩
  · rw [State.mapSubs_get]; exact .rewait
  · have hq (r : Subscription) : r.rewait.queue = r.queue := by unfold Subscription.rewait; split <;> rfl
    have ht : (s.mapSubs Subscription.rewait).txBuffers = s.txBuffers := by
      rw [State.txBuffers, State.mapSubs_streams, ← State.txBuffers]
    rw [State.buffers_count, State.buffers_count, s.mapSubs_rxBuffers _ hq, ht, State.mapSubs_freeList,
      State.mapSubs_inTransit]

theorem State.setEntry_conserves (s : State) (k : SlotNo) (e : MapEntry) : Conserves s (s.setEntry k e) := .untouched rfl

theorem State.mapEntries_conserves (s : State) (f : SlotNo → MapEntry → MapEntry) : Conserves s (s.mapEntries f) :=
  .untouched (by simp [State.store])

theorem State.setLane_conserves (s : State) (l : LaneNo) (r : Option Lane) : Conserves s (s.setLane l r) := .untouched rfl

theorem State.drawUsed_conserves (s : State) : Conserves s s.drawUsed := .untouched rfl

theorem State.nextIs_conserves (s : State) (b : Boundary) : Conserves s (s.nextIs b) := .untouched rfl

theorem State.handOver_conserves (s : State) (f : Frame) : Conserves s (s.handOver f) := .untouched rfl

/-! ### The slot map -/

theorem State.raiseClash_conserves (s : State) : Conserves s s.raiseClash := by
  unfold State.raiseClash
  split
  · exact .refl s
  · exact (s.post_conserves _).trans (.untouched rfl)

theorem State.checkAddress_conserves (s : State) (a : Address) : Conserves s (s.checkAddress a) := by
  unfold State.checkAddress
  split
  · exact s.raiseClash_conserves
  · exact .refl s

theorem State.observeSlot_conserves (s : State) (k : SlotNo) (c : ObsClass SlotFrame) :
    Conserves s (s.observeSlot k c) := by
  unfold State.observeSlot
  split
  · exact .refl s
  · split
    · exact (s.checkAddress_conserves _).trans (State.setEntry_conserves _ _ _)
    all_goals exact s.setEntry_conserves _ _

/-! ### The claim engine -/

theorem State.failStream_conserves (s : State) (i : StreamNo) (why : Reason) : Conserves s (s.failStream i why) :=
  (s.modStream_conserves i _ rfl).trans (State.post_conserves _ _)

theorem State.shortStream_conserves (s : State) (i : StreamNo) (why : Reason) : Conserves s (s.shortStream i why) := by
  unfold State.shortStream
  split
  · exact .refl s
  · exact (s.modStream_conserves i _ rfl).trans (State.post_conserves _ _)

theorem State.countBackoffs_conserves (s : State) : Conserves s s.countBackoffs :=
  s.mapStreams_conserves _ fun _ => by split <;> rfl

theorem State.queued_conserves (s : State) (q : List StreamNo) : Conserves s { s with claimQueue := q } := .untouched rfl

theorem State.joinQueue_conserves (s : State) : Conserves s s.joinQueue := s.queued_conserves _

theorem State.grant_conserves (s : State) (l : LaneNo) (i : StreamNo) (k : SlotNo) : Conserves s (s.grant l i k) := by
  unfold State.grant
  exact (((s.queued_conserves _).trans (State.setLane_conserves _ _ _)).trans (State.setEntry_conserves _ _ _)).trans
    (State.modStream_conserves _ _ _ rfl)

theorem State.serveLane_conserves (s : State) (l : LaneNo) : Conserves s (s.serveLane l) := by
  unfold State.serveLane
  split
  · split
    · exact s.drawUsed_conserves.trans (State.grant_conserves _ _ _ _)
    · exact .refl s
  all_goals exact .refl s

theorem State.limitDeferral_conserves (s : State) (i : StreamNo) : Conserves s (s.limitDeferral i) := by
  unfold State.limitDeferral
  split
  · exact .refl s
  · split
    · exact (s.queued_conserves _).trans (State.failStream_conserves _ _ _)
    · exact (s.modStream_conserves i _ rfl).trans (State.shortStream_conserves _ _ _)

theorem State.serveClaims_conserves (s : State) : Conserves s s.serveClaims := by
  unfold State.serveClaims State.serveLanes State.limitDeferrals
  refine (s.countBackoffs_conserves.trans (State.joinQueue_conserves _)).trans ?_
  refine Conserves.trans ?_ (.foldl State.limitDeferral_conserves _ _)
  split
  · exact State.mapStreams_conserves _ _ fun _ => by split <;> rfl
  · exact (State.serveLane_conserves _ 0).trans (State.serveLane_conserves _ 1)

theorem State.winSlot_conserves (s : State) (l : LaneNo) (r : Lane) : Conserves s (s.winSlot l r) :=
  ((s.setLane_conserves l none).trans (State.setEntry_conserves _ _ _)).trans (State.modStream_conserves _ _ _ rfl)

theorem State.goLive_conserves (s : State) (i : StreamNo) (k : SlotNo) : Conserves s (s.goLive i k) := by
  unfold State.goLive
  split
  · exact (s.modStream_conserves i _ rfl).trans (State.post_conserves _ _)
  · exact .refl s

theorem State.loseProbe_conserves (s : State) (l : LaneNo) (r : Lane) : Conserves s (s.loseProbe l r) :=
  (((s.setLane_conserves l none).trans (State.setEntry_conserves _ _ _)).trans
    (State.modStream_conserves _ _ _ rfl)).trans (State.drawUsed_conserves _)

theorem State.limitAttempts_conserves (s : State) (i : StreamNo) : Conserves s (s.limitAttempts i) := by
  unfold State.limitAttempts
  split
  · exact .refl s
  · split
    · exact s.failStream_conserves i _
    · exact (s.modStream_conserves i _ rfl).trans (State.shortStream_conserves _ _ _)

theorem State.claimOutcome_conserves (s : State) (k : SlotNo) (o : Outcome) : Conserves s (s.claimOutcome k o) := by
  unfold State.claimOutcome
  split
  · exact .refl s
  · split
    · split
      · exact s.setLane_conserves _ _
      · exact (s.winSlot_conserves _ _).trans (State.goLive_conserves _ _ _)
    · exact (s.loseProbe_conserves _ _).trans (State.limitAttempts_conserves _ _)

theorem State.abandonLaneOf_conserves (s : State) (i : StreamNo) (l : LaneNo) : Conserves s (s.abandonLaneOf i l) := by
  unfold State.abandonLaneOf State.abandonLane
  split
  · split
    · exact (s.setLane_conserves l none).trans (State.setEntry_conserves _ _ _)
    · exact .refl s
  · exact .refl s

theorem State.leaveClaims_conserves (s : State) (i : StreamNo) : Conserves s (s.leaveClaims i) := by
  exact (((s.abandonLaneOf_conserves i 0).trans (State.abandonLaneOf_conserves _ i 1)).trans
    (State.queued_conserves _ _)).trans
    (State.modStream_conserves _ i Stream.clearClaim rfl)

/-! ### The stream unit -/

/-- The head block of a stream's queue becomes the in-transit block, where there was none (R106). -/
theorem State.sendData_conserves {s : State} {i : StreamNo} {k : SlotNo} {block : Block} {rest : List Block}
    (hq : s.streams[i].queue = block :: rest) (ht : s.inTransit = none) : Conserves s (s.sendData i k block) := by
  refine ⟨rfl, rfl, rfl, rfl, .refl _, fun _ => .refl _, fun b => ?_⟩
  have hb : (s.sendData i k block).txBuffers.count b + s.streams[i].buffers.count b =
      s.txBuffers.count b + (rest.map (·.buffer)).count b := by
    have := s.modStream_txBuffers i (fun r => { r with queue := r.queue.tail }) b
    rw [show (({ s.streams[i] with queue := s.streams[i].queue.tail } : Stream)).buffers = rest.map (·.buffer) by
      rw [hq]; rfl] at this
    exact this
  rw [State.buffers_count, State.buffers_count, ht]
  have hh : s.streams[i].buffers.count b = [block.buffer].count b + (rest.map (·.buffer)).count b := by
    rw [Stream.buffers, hq, ← List.count_append]; rfl
  have hi : ((s.sendData i k block).inTransit.toList.map (·.block.buffer)).count b = [block.buffer].count b := rfl
  have hf : (s.sendData i k block).freeList.count b = s.freeList.count b := rfl
  have hr : (s.sendData i k block).rxBuffers.count b = s.rxBuffers.count b := rfl
  have hn : ((none : Option InTransit).toList.map (·.block.buffer)).count b = 0 := rfl
  omega

theorem State.sendFill_conserves (s : State) (i : StreamNo) : Conserves s (s.sendFill i) :=
  (s.handOver_conserves _).trans (State.modStream_conserves _ i _ rfl)

theorem State.finishClosing_conserves (s : State) (i : StreamNo) : Conserves s (s.finishClosing i) := by
  unfold State.finishClosing
  split
  · exact (s.modStream_conserves i _ rfl).trans (State.post_conserves _ _)
  · exact .refl s

theorem State.releaseSlot_conserves (s : State) (k : SlotNo) (i : StreamNo) : Conserves s (s.releaseSlot k i) :=
  (((s.setEntry_conserves k _).trans (State.modStream_conserves _ i _ rfl)).trans (State.post_conserves _ _)).trans
    (State.finishClosing_conserves _ i)

theorem State.raiseConflict_conserves (s : State) (k : SlotNo) : Conserves s (s.raiseConflict k) := by
  unfold State.raiseConflict
  split
  · split
    · exact s.setEntry_conserves k _
    · exact s.releaseSlot_conserves k _
  all_goals exact .refl s

theorem State.clearConflict_conserves (s : State) (k : SlotNo) : Conserves s (s.clearConflict k) := by
  unfold State.clearConflict
  split
  · exact s.setEntry_conserves k _
  all_goals exact .refl s

theorem State.transit_count {s : State} {d : InTransit} (h : s.inTransit = some d) (b : BufferNo) :
    (s.inTransit.toList.map (·.block.buffer)).count b = [d.block.buffer].count b := by rw [h]; rfl

/-- The in-transit block goes to the free list. -/
theorem State.freeTransit_conserves {s : State} {d : InTransit} (h : s.inTransit = some d) :
    Conserves s { s.release [d.block.buffer] with inTransit := none } := by
  refine ⟨rfl, rfl, rfl, rfl, .refl _, fun _ => .refl _, fun b => ?_⟩
  have hf : (s.release [d.block.buffer]).freeList.count b = s.freeList.count b + [d.block.buffer].count b :=
    List.count_append
  rw [State.buffers_count, State.buffers_count s, State.transit_count h]
  change (s.release [d.block.buffer]).freeList.count b + s.txBuffers.count b + 0 + s.rxBuffers.count b = _
  omega

/-- The in-transit block goes to the head of its queue (R113). -/
theorem State.returnTransit_conserves {s : State} {d : InTransit} (h : s.inTransit = some d) :
    Conserves s { s.modStream d.stream (fun r => { r with queue := d.block :: r.queue }) with inTransit := none } := by
  refine ⟨rfl, rfl, rfl, rfl, .refl _, fun _ => .refl _, fun b => ?_⟩
  have hb := s.modStream_txBuffers d.stream (fun r => { r with queue := d.block :: r.queue }) b
  have hq : ({ s.streams[d.stream] with queue := d.block :: s.streams[d.stream].queue } : Stream).buffers.count b =
      [d.block.buffer].count b + s.streams[d.stream].buffers.count b := by
    rw [← List.count_append]; rfl
  rw [hq] at hb
  rw [State.buffers_count, State.buffers_count s, State.transit_count h]
  change s.freeList.count b + (s.modStream d.stream fun r => { r with queue := d.block :: r.queue }).txBuffers.count b +
    0 + s.rxBuffers.count b = _
  omega

theorem State.settleTransit_conserves (s : State) : Conserves s s.settleTransit := by
  unfold State.settleTransit
  split
  · exact .refl s
  · split
    · exact State.returnTransit_conserves ‹_›
    · exact State.freeTransit_conserves ‹_›

theorem State.deliverTransit_conserves (s : State) : Conserves s s.deliverTransit := by
  unfold State.deliverTransit
  split
  · exact .refl s
  · rename_i d hd
    refine (State.freeTransit_conserves hd).trans ?_
    exact State.modStream_conserves _ d.stream
      (fun r => { r with sequence := r.sequence + 1, blocksSent := bump r.blocksSent }) rfl

theorem State.finalSent_conserves (s : State) (k : SlotNo) : Conserves s (s.finalSent k) := by
  unfold State.finalSent
  split
  · exact ((s.setEntry_conserves k _).trans (State.modStream_conserves _ _ _ rfl)).trans
      (State.finishClosing_conserves _ _)
  all_goals exact .refl s

theorem State.takeOutcome_conserves (s : State) (k : SlotNo) (f : Frame) (o : Outcome) :
    Conserves s (s.takeOutcome k f o) := by
  unfold State.takeOutcome
  split
  · exact s.claimOutcome_conserves k o
  · cases o
    · exact s.deliverTransit_conserves.trans (State.clearConflict_conserves _ k)
    · exact s.settleTransit_conserves.trans (State.raiseConflict_conserves _ k)
  · cases o
    · exact s.clearConflict_conserves k
    · exact s.raiseConflict_conserves k
  · exact s.finalSent_conserves k
  · exact .refl s

theorem State.freeQueue_conserves (s : State) (i : StreamNo) : Conserves s (s.freeQueue i) := by
  refine ⟨rfl, rfl, rfl, rfl, .refl _, fun _ => .refl _, fun b => ?_⟩
  have hb := (s.release s.streams[i].buffers).modStream_txBuffers i (fun r => { r with queue := [] }) b
  have hf : (s.freeQueue i).freeList.count b = s.freeList.count b + s.streams[i].buffers.count b := List.count_append
  have he : ({ s.streams[i] with queue := [] } : Stream).buffers.count b = 0 := rfl
  have hi : (s.freeQueue i).inTransit = s.inTransit := rfl
  have hr : (s.freeQueue i).rxBuffers = s.rxBuffers := rfl
  change (s.freeQueue i).txBuffers.count b + s.streams[i].buffers.count b = s.txBuffers.count b + 0 at hb
  rw [State.buffers_count, State.buffers_count, hf, hi, hr]
  omega

theorem State.condemnTransit_conserves (s : State) (i : StreamNo) : Conserves s (s.condemnTransit i) := by
  rw [State.condemnTransit_eq]
  refine ⟨rfl, rfl, rfl, rfl, .refl _, fun _ => .refl _, fun b => ?_⟩
  have hi : (s.inTransit.map (InTransit.condemned i)).toList.map (·.block.buffer) =
      s.inTransit.toList.map (·.block.buffer) := by
    cases s.inTransit with
    | none => rfl
    | some d => simp only [Option.map_some, Option.toList_some, List.map_cons, InTransit.condemned]; split <;> rfl
  rw [State.buffers_count, State.buffers_count, State.withWork_inTransit, hi]
  rfl

theorem State.markFinal_conserves (s : State) (i : StreamNo) : Conserves s (s.markFinal i) := s.mapEntries_conserves _

theorem State.beginClose_conserves (s : State) (i : StreamNo) : Conserves s (s.beginClose i) := by
  refine .trans ?_ (State.markFinal_conserves _ i)
  refine .trans ?_ (State.modStream_conserves _ i _ rfl)
  exact ((s.freeQueue_conserves i).trans (State.condemnTransit_conserves _ i)).trans (State.leaveClaims_conserves _ i)

theorem State.closeStream_conserves (s : State) (i : StreamNo) : Conserves s (s.closeStream i) := by
  unfold State.closeStream
  dsimp only
  split
  · exact ((s.beginClose_conserves i).trans (State.modStream_conserves _ i _ rfl)).trans (State.post_conserves _ _)
  · exact s.beginClose_conserves i

theorem State.closeFailed_conserves (s : State) (i : StreamNo) : Conserves s (s.closeFailed i) :=
  ((s.freeQueue_conserves i).trans (State.condemnTransit_conserves _ i)).trans (State.modStream_conserves _ i _ rfl)

theorem State.stopStreams_conserves (s : State) : Conserves s s.stopStreams := by
  refine .foldl (fun s i => ?_) _ s
  unfold State.stopStream
  split
  · exact s.closeStream_conserves i
  · exact s.closeStream_conserves i
  · exact s.closeFailed_conserves i
  · exact .refl s
  · exact .refl s

/-! ### The receive unit (R129 to R137) -/

theorem State.matching_used {s : State} {source : Address} {tag : Byte} {e : EntryNo}
    (h : s.matching source tag = some e) : s.subs[e].state ≠ .idle := by
  have hp := List.find?_some h
  intro hi
  rw [hi] at hp
  cases hp

theorem State.hitPresence_conserves {s : State} {e : EntryNo} (h : s.subs[e].state ≠ .idle) :
    Conserves s (s.hitPresence e) := s.modSub_conserves e _ (.hitPresence h) rfl

theorem State.hitFinal_conserves {s : State} {e : EntryNo} (h : s.subs[e].state ≠ .idle) (k : SlotNo) :
    Conserves s (s.hitFinal e k) := by
  unfold State.hitFinal
  split
  · exact .refl s
  · exact (s.modSub_conserves e _ (.ended h) rfl).trans (State.post_conserves _ _)

/-- What a DATA hit makes of its record, with the queue and the expectation it leaves (R131 to R134). -/
def Subscription.hit (r : Subscription) : Subscription :=
  if r.state = .active then { r with presence := true } else { r with state := .active, quietCount := 0, presence := true }

theorem Subscription.hit_queue (r : Subscription) : r.hit.queue = r.queue := by
  unfold Subscription.hit; split <;> rfl

/-- A record hit by DATA keeps its laws, whatever was done to its queue and expectation before. -/
theorem Subscription.Keeps.hit {r q : Subscription} (h : r.state ≠ .idle) (hs : q.state = r.state)
    (hn : q.quietCount = r.quietCount) (source : q.source = r.source) (tag : q.tag = r.tag)
    (queue : r.queue <+: q.queue) (room : r.Fits → q.queue.length ≤ Config.rxBlocks) : r.Keeps q.hit := by
  unfold Subscription.hit
  split
  · rename_i ha
    refine ⟨fun f => ⟨room f, hn ▸ f.quietRange, fun hne => absurd ha hne, ?_, ?_, fun _ => source ▸ f.sourceNamed h⟩,
      ?_, source, tag, queue⟩
    · exact fun hi => nomatch ha.symm.trans hi
    · exact fun ho => ho.elim (fun hw => nomatch ha.symm.trans hw) fun he => nomatch ha.symm.trans he
    · exact ⟨fun hi => (h (hs ▸ hi)).elim, fun hi => (h hi).elim⟩
  · exact ⟨fun f => ⟨room f, zero_lt_lease, fun _ => rfl, nofun, nofun, fun _ => source ▸ f.sourceNamed h⟩,
      ⟨nofun, fun hi => absurd hi h⟩, source, tag, queue⟩

/-- The activation of an entry is one change of its record, with an event or without. -/
theorem State.activateSub_eq (s : State) (e : EntryNo) (k : SlotNo) :
    s.activateSub e k = s.modSub e Subscription.hit ∨
      s.activateSub e k = (s.modSub e Subscription.hit).post (.subActive e k) := by
  have hm (f : Subscription → Subscription) (h : f s.subs[e] = s.subs[e].hit) :
      s.modSub e f = s.modSub e Subscription.hit := by unfold State.modSub; rw [h]
  unfold State.activateSub
  split
  · left; exact hm _ (if_pos ‹_›).symm
  · right; rw [hm _ (if_neg ‹_›).symm]

/-- A DATA hit keeps everything once its block is stored or dropped. -/
theorem State.hit_conserves {s u : State} {e : EntryNo} {q : Subscription} (k : SlotNo)
    (config : u.config = s.config) (resetHeld : u.resetHeld = s.resetHeld) (selectLow : u.selectLow = s.selectLow)
    (link : u.link = s.link) (events : u.events = s.events) (subs : u.subs = s.subs.set e q)
    (buffers : ∀ b : BufferNo, u.buffers.count b = s.buffers.count b) (h : s.subs[e].Keeps q.hit) :
    Conserves s (u.activateSub e k) := by
  have hm : Conserves s (u.modSub e Subscription.hit) := by
    refine ⟨config, resetHeld, selectLow, link, .of_eq events, fun d => ?_,
      fun b => (u.modSub_buffers e _ (Subscription.hit_queue _) b).trans (buffers b)⟩
    rw [State.modSub_get, subs]
    by_cases he : e = d
    · subst he
      simpa using h
    · have hne : e.val ≠ d.val := fun hv => he (Fin.ext hv)
      simp only [if_neg he, Fin.getElem_fin, Vector.getElem_set_ne _ _ hne]
      exact .refl _
  rcases u.activateSub_eq e k with h | h <;> rw [h]
  · exact hm
  · exact hm.trans (State.post_conserves _ _)

/-- The buffer given has left the free list (R143). -/
theorem State.allocate_gives (s : State) {b : BufferNo} (hb : b ∈ s.freeList) (c : BufferNo) :
    (s.allocate b).freeList.count c + [b].count c = s.freeList.count c := by
  rw [← s.allocate_count b c hb]
  by_cases hc : c = b
  · simp [hc]
  · simp [hc, Ne.symm hc]

theorem State.dropHit_conserves {s : State} {e : EntryNo} (h : s.subs[e].state ≠ .idle) (k : SlotNo) :
    Conserves s ((s.dropBlock e).activateSub e k) :=
  State.hit_conserves k rfl rfl rfl rfl rfl rfl
    (fun b => s.modSub_buffers e (fun r => { r with dropped := bump r.dropped }) rfl b)
    (.hit h rfl rfl rfl rfl List.prefix_rfl fun f => f.queueRoom)

/-- The record of an entry once a DATA block is stored (R132). -/
def Subscription.withBlock (r : Subscription) (e : EntryNo) (k : SlotNo) (cycle : Half) (f : SlotFrame) (b : BufferNo) :
    Subscription :=
  { r with
    queue := r.queue ++ [{ buffer := b, entry := e, source := f.owner, tag := f.tag, cycle := cycle, slot := k,
                           sequence := f.sequence, gap := r.gap f.sequence, payload := f.payload }]
    expected := some (f.sequence + 1)
    stored := bump r.stored }

theorem State.storeHit_conserves {s : State} {e : EntryNo} (h : s.subs[e].state ≠ .idle) (k : SlotNo) (cycle : Half)
    (f : SlotFrame) {b : BufferNo} (hb : b ∈ s.freeList) (room : s.subs[e].queue.length < Config.rxBlocks) :
    Conserves s ((s.storeBlock e k cycle f b).activateSub e k) := by
  refine State.hit_conserves k rfl rfl rfl rfl rfl rfl (fun c => ?_)
    (.hit h rfl rfl rfl rfl (List.prefix_append _ _) fun _ => ?_)
  · have hx : (s.storeBlock e k cycle f b).rxBuffers.count c + s.subs[e].buffers.count c =
        s.rxBuffers.count c + (s.subs[e].withBlock e k cycle f b).buffers.count c :=
      (s.allocate b).modSub_rxBuffers e _ c
    have hq : (s.subs[e].withBlock e k cycle f b).buffers.count c = s.subs[e].buffers.count c + [b].count c := by
      rw [← List.count_append]
      exact congrArg (List.count c) List.map_append
    have hf : (s.storeBlock e k cycle f b).freeList.count c + [b].count c = s.freeList.count c :=
      s.allocate_gives hb c
    have ht : (s.storeBlock e k cycle f b).txBuffers = s.txBuffers := rfl
    have hi : (s.storeBlock e k cycle f b).inTransit = s.inTransit := rfl
    rw [State.buffers_count, State.buffers_count s, ht, hi]
    omega
  · rw [List.length_append]; exact room

theorem State.hitData_conserves {s : State} {e : EntryNo} (h : s.subs[e].state ≠ .idle) (k : SlotNo) (cycle : Half)
    (f : SlotFrame) : Conserves s (s.hitData e k cycle f) := by
  unfold State.hitData State.storeOrDrop
  split
  · rcases s.givenBuffer_cases with ⟨-, hg⟩ | ⟨b, hb, hg⟩
    · simp only [hg]
      exact State.dropHit_conserves h k
    · simp only [hg]
      exact State.storeHit_conserves h k cycle f hb ‹_›
  · exact State.dropHit_conserves h k

theorem State.receive_conserves (s : State) (k : SlotNo) (cycle : Half) (f : SlotFrame) :
    Conserves s (s.receive k cycle f) := by
  unfold State.receive
  split
  · exact .refl s
  · have hu := State.matching_used ‹_›
    split
    · exact State.hitPresence_conserves hu
    · exact State.hitPresence_conserves hu
    · exact State.hitData_conserves hu k cycle f
    · exact State.hitFinal_conserves hu k

theorem State.receiveClass_conserves (s : State) (k : SlotNo) (cycle : Half) (c : ObsClass SlotFrame) :
    Conserves s (s.receiveClass k cycle c) := by
  cases c
  · exact .refl s
  · exact s.receive_conserves k cycle _
  · exact .refl s
  · exact .refl s

theorem State.countQuiet_conserves (s : State) (e : EntryNo) : Conserves s (s.countQuiet e) := by
  unfold State.countQuiet
  split
  · rename_i ha
    split
    · exact s.modSub_conserves e _ (.counted ha.1 ‹_›) rfl
    · exact (s.modSub_conserves e _ (.stale ha.1) rfl).trans (State.post_conserves _ _)
  · exact s.modSub_conserves e _ .quiet rfl

theorem State.receiveCycleEnd_conserves (s : State) : Conserves s s.receiveCycleEnd := by
  unfold State.receiveCycleEnd
  split
  · exact .foldl State.countQuiet_conserves _ s
  · exact .refl s

/-! ### The timeline unit and the beacon unit -/

theorem State.startTimer_conserves (s : State) : Conserves s s.startTimer := .untouched rfl

theorem State.enter_conserves (s : State) (target : StationState) (cause : Cause) : Conserves s (s.enter target cause) :=
  .trans (t := { s with station := target }) (.untouched rfl) (State.post_conserves _ _)

theorem State.leaveTimeline_conserves (s : State) : Conserves s s.leaveTimeline := .untouched rfl

theorem State.emptyClaims_conserves (s : State) : Conserves s s.emptyClaims := .untouched rfl

theorem State.arriveReady_conserves (s : State) (cause : Cause) : Conserves s (s.arriveReady cause) := by
  have ha : Conserves s s.leaveTimeline.clearMap.emptyClaims :=
    (s.leaveTimeline_conserves.trans (State.mapEntries_conserves _ _)).trans (State.emptyClaims_conserves _)
  have hr := ha.trans (State.rewaits_conserves _)
  have ht (u : State) : Conserves u { u with listenTimer := .stopped, sessionFlag := false } := .untouched rfl
  exact (hr.trans (ht _)).trans (State.enter_conserves _ _ _)

theorem Stream.drop_queue (r : Stream) : r.drop.queue = r.queue := by
  cases r with | mk st => cases st <;> rfl

theorem State.timelineDrop_conserves (s : State) : Conserves s s.timelineDrop := by
  have hd : Conserves s s.settleTransit.emptyClaims.clearMap :=
    (s.settleTransit_conserves.trans (State.emptyClaims_conserves _)).trans (State.mapEntries_conserves _ _)
  have hs := hd.trans (State.mapStreams_conserves _ (fun _ r => r.drop) fun _ => Stream.drop_queue _)
  have ht (u : State) : Conserves u { u with tx := none } := .untouched rfl
  exact (hs.trans (State.rewaits_conserves _)).trans (ht _)

theorem State.checkLeft_conserves (s : State) : Conserves s s.checkLeft := by
  unfold State.checkLeft
  split
  · exact s.arriveReady_conserves _
  · exact .refl s

theorem State.joinTimeline_conserves (s : State) (b : BeaconFrame) (firstBit : Time) :
    Conserves s (s.joinTimeline b firstBit) := .untouched rfl

theorem State.countCleanBeacon_conserves (s : State) : Conserves s s.countCleanBeacon := .untouched rfl

theorem State.mergeSummary_conserves (s : State) (summary : SlotFlags) : Conserves s (s.mergeSummary summary) :=
  s.mapEntries_conserves _

theorem State.takeJoined_conserves (s : State) (b : BeaconFrame) :
    Conserves s ((s.countCleanBeacon.mergeSummary b.occupancy).checkAddress b.sender) :=
  (s.countCleanBeacon_conserves.trans (State.mergeSummary_conserves _ _)).trans (State.checkAddress_conserves _ _)

theorem State.restartReceiver_conserves (s : State) (moment : Time) : Conserves s (s.restartReceiver moment) :=
  .untouched rfl

theorem State.adopt_conserves (s : State) (b : BeaconFrame) (firstBit lastBit : Time) :
    Conserves s (s.adopt b firstBit lastBit) :=
  (((s.restartReceiver_conserves lastBit).trans (State.joinTimeline_conserves _ _ _)).trans
    (State.enter_conserves _ _ _)).trans (State.takeJoined_conserves _ b)

theorem State.mergeOnto_conserves (s : State) (b : BeaconFrame) (firstBit : Time) :
    Conserves s (s.mergeOnto b firstBit) :=
  (((s.timelineDrop_conserves.trans (State.joinTimeline_conserves _ _ _)).trans (State.enter_conserves _ _ _)).trans
    (State.postAll_conserves _ _)).trans (State.takeJoined_conserves _ b)

theorem State.mergeLeaving_conserves (s : State) (b : BeaconFrame) : Conserves s (s.mergeLeaving b) := by
  have ht : Conserves s ((s.timelineDrop.arriveReady .merge).postAll (s.closingStreams.map .streamClosed)) :=
    (s.timelineDrop_conserves.trans (State.arriveReady_conserves _ _)).trans (State.postAll_conserves _ _)
  unfold State.mergeLeaving
  dsimp only
  split
  · exact ht.trans (State.post_conserves _ _)
  · exact ht

theorem State.sortBeacon_conserves (s : State) (t : Timeline) (b : BeaconFrame) (firstBit : Time) :
    Conserves s (s.sortBeacon t b firstBit) := by
  have hf (u : State) : Conserves u u.countForeign := .untouched rfl
  unfold State.sortBeacon
  split
  · exact .refl s
  · split
    · split
      · exact s.mergeLeaving_conserves b
      · exact s.mergeOnto_conserves b firstBit
    · exact (hf s).trans (State.checkAddress_conserves _ _)

theorem State.beaconWasHeard_conserves (s : State) : Conserves s s.beaconWasHeard := .untouched rfl

theorem State.countClash_conserves (s : State) : Conserves s s.countClash := .untouched rfl

theorem State.compareCycle_conserves (s : State) (b : BeaconFrame) : Conserves s (s.compareCycle b) := by
  unfold State.compareCycle
  split
  · exact .refl s
  · exact .untouched rfl

theorem State.trim_conserves (s : State) (b : BeaconFrame) (firstBit : Time) : Conserves s (s.trim b firstBit) :=
  .untouched rfl

theorem State.takeOwnBeacon_conserves (s : State) (b : BeaconFrame) (firstBit : Time) :
    Conserves s (s.takeOwnBeacon b firstBit) :=
  (((s.beaconWasHeard_conserves.trans (State.compareCycle_conserves _ _)).trans (State.trim_conserves _ _ _)).trans
    (State.mergeSummary_conserves _ _)).trans (State.checkAddress_conserves _ _)

theorem State.beaconOutcome_conserves (s : State) (o : Outcome) : Conserves s (s.beaconOutcome o) := by
  cases o
  · exact s.beaconWasHeard_conserves
  · exact s.countClash_conserves

theorem State.takePosition_conserves (s : State) (c : ObsClass HeardBeacon) : Conserves s (s.takePosition c) := by
  unfold State.takePosition
  split
  · exact .refl s
  · exact s.takeOwnBeacon_conserves _ _
  · exact .refl s
  · exact s.countClash_conserves
  · exact .refl s

theorem State.drawPosition_conserves (s : State) : Conserves s s.drawPosition := by
  unfold State.drawPosition
  split
  · exact .untouched rfl
  · exact .untouched rfl

theorem State.openPosition_conserves (s : State) (t : Timeline) (p : Position) : Conserves s (s.openPosition t p) := by
  unfold State.openPosition
  split
  · split
    · exact .untouched rfl
    · exact .untouched rfl
  · exact .refl s

theorem State.fillMap_conserves (s : State) : Conserves s s.fillMap := s.mapEntries_conserves _

theorem State.found_conserves (s : State) (time : Time) : Conserves s (s.found time) := by
  have hf : Conserves s { s.clearActivity with
      timeline := some (s.foundedTimeline time), holdover := 0, settle := 0, listenTimer := .stopped
      reports := Reports.empty } := .untouched rfl
  exact ((hf.trans (State.fillMap_conserves _)).trans (State.enter_conserves _ _ _)).trans
    (State.drawPosition_conserves _)

theorem State.abandonFrame_conserves (s : State) : Conserves s s.abandonFrame := by
  unfold State.abandonFrame
  split
  · exact .refl s
  · exact s.restartReceiver_conserves _

theorem State.loseSync_conserves (s : State) : Conserves s s.loseSync :=
  ((((s.abandonFrame_conserves.trans (State.timelineDrop_conserves _)).trans (State.leaveTimeline_conserves _)).trans
    (State.startTimer_conserves _)).trans (State.enter_conserves _ _ _)).trans (State.postAll_conserves _ _)

theorem State.loseSyncLeaving_conserves (s : State) : Conserves s s.loseSyncLeaving :=
  (s.timelineDrop_conserves.trans (State.arriveReady_conserves _ _)).trans (State.postAll_conserves _ _)

theorem State.countSettle_conserves (s : State) : Conserves s s.countSettle := by
  unfold State.countSettle
  split
  · split
    · exact .untouched rfl
    · exact .trans (t := { s with settle := 0 }) (.untouched rfl) (State.enter_conserves _ _ _)
  · exact .refl s

theorem State.countHoldover_conserves (s : State) : Conserves s s.countHoldover := by
  unfold State.countHoldover
  split
  · exact s.countSettle_conserves
  · split
    · exact .trans (t := { s with holdover := s.holdover + 1 }) (.untouched rfl) (State.countSettle_conserves _)
    · split
      · exact s.loseSyncLeaving_conserves
      · exact s.loseSync_conserves

theorem State.endCycle_conserves (s : State) : Conserves s s.endCycle := by
  unfold State.endCycle
  split
  · exact s.receiveCycleEnd_conserves.trans (State.countHoldover_conserves _)
  · exact s.countHoldover_conserves.trans (State.receiveCycleEnd_conserves _)

theorem State.stopEarly_conserves (s : State) : Conserves s s.stopEarly :=
  (s.arriveReady_conserves _).trans (State.stopStreams_conserves _)

theorem State.stopActive_conserves (s : State) : Conserves s s.stopActive := by
  have hd (u : State) : Conserves u { u with drawnPosition := none } := .untouched rfl
  have ht := ((s.enter_conserves .leaving .stop).trans (State.stopStreams_conserves _)).trans (hd _)
  unfold State.stopActive
  dsimp only
  split
  · exact ht
  · exact ht.trans (State.checkLeft_conserves _)

/-! ### Cycle events -/

theorem State.closeDivision_conserves (s : State) : Conserves s s.closeDivision := .untouched rfl

theorem State.openDivision_conserves (s : State) : Conserves s s.openDivision := .untouched rfl

theorem State.closePosition_conserves (s : State) (t : Timeline) (p : Position) :
    Conserves s (s.closePosition t p) := by
  unfold State.closePosition
  split
  · exact ((s.closeDivision_conserves.trans (State.beaconOutcome_conserves _ _)).trans
      (State.nextIs_conserves _ _)).trans (State.checkLeft_conserves _)
  · exact (s.closeDivision_conserves.trans (State.takePosition_conserves _ _)).trans (State.nextIs_conserves _ _)

/-- What a slot begin hands over keeps every block where no block is in transit. -/
theorem State.beginSlot_conserves {s : State} (h : s.inTransit = none) (k : SlotNo) : Conserves s (s.beginSlot k) := by
  unfold State.beginSlot
  split
  · split
    · exact s.handOver_conserves _
    · exact .refl s
  · split
    · unfold State.sendOwned
      split
      · exact s.handOver_conserves _
      · split
        · exact State.sendData_conserves ‹_› h
        · exact s.sendFill_conserves _
    · exact .refl s
  all_goals exact .refl s

theorem State.recordOutcome_conserves (s : State) (k : SlotNo) (o : Outcome) : Conserves s (s.recordOutcome k o) := by
  cases o <;> exact .untouched rfl

theorem State.recordClass_conserves (s : State) (k : SlotNo) (c : ObsClass SlotFrame) :
    Conserves s (s.recordClass k c) := by
  cases c <;> exact .untouched rfl

theorem State.endOwnSlot_conserves (s : State) (t : Timeline) (k : SlotNo) (x : Transmission) :
    Conserves s (s.endOwnSlot t k x) := by
  have hu (o : Outcome) : Conserves s
      (((s.closeDivision.recordOutcome k o).takeOutcome k x.frame o).nextIs (Boundary.afterSlot k)) :=
    ((s.closeDivision_conserves.trans (State.recordOutcome_conserves _ _ _)).trans
      (State.takeOutcome_conserves _ _ _ _)).trans (State.nextIs_conserves _ _)
  unfold State.endOwnSlot
  dsimp only
  split
  · exact (hu _).trans (State.checkLeft_conserves _)
  · exact hu _

theorem State.endHeardSlot_conserves (s : State) (t : Timeline) (k : SlotNo) : Conserves s (s.endHeardSlot t k) :=
  (((s.closeDivision_conserves.trans (State.recordClass_conserves _ _ _)).trans (State.observeSlot_conserves _ _ _)).trans
    (State.receiveClass_conserves _ _ _ _)).trans (State.nextIs_conserves _ _)

/-! ### What the line reports -/

theorem State.hears_conserves (s : State) (time : Time) : Conserves s (s.hears time) := by
  unfold State.hears
  split
  · exact .untouched rfl
  · exact .refl s

theorem State.handBeacon_conserves (s : State) (r : FrameReport) : Conserves s (s.handBeacon r) := by
  unfold State.handBeacon
  split
  · split
    · exact s.adopt_conserves _ _ _
    · split
      · exact s.sortBeacon_conserves _ _ _
      · exact .refl s
  all_goals exact .refl s

theorem State.takeReport_conserves (s : State) (r : FrameReport) : Conserves s (s.takeReport r) := by
  have hg (u : State) : Conserves u (u.gatherFrame r) := .untouched rfl
  unfold State.takeReport
  split
  · exact (hg s).trans (State.handBeacon_conserves _ _)
  · exact s.handBeacon_conserves r

end Sys2Proof.Machine
end

section
/-! PROOF. What the commands keep of the configuration, the link, the event queue, the subscriptions and the pool: O12,
and these blocks' part of O60. -/

namespace Sys2Proof.Machine

open Sys2Proof.Safety

/-! ## The commands that the timeline unit and the line raise -/

theorem State.unlessHeld_conserves {s : State} {f : State → State} (h : s.resetHeld = false → Conserves s (f s)) :
    Conserves s (s.unlessHeld f) := by
  rcases s.unlessHeld_cases f with ⟨-, he⟩ | ⟨hh, he⟩ <;> rw [he]
  · exact .refl s
  · exact h hh

theorem State.atEvent_conserves {s : State} {b : Boundary} {f : Timeline → State → State}
    (h : ∀ t, s.timeline = some t → t.nextBoundary = b → Conserves s (f t s)) : Conserves s (s.atEvent b f) := by
  rcases s.atEvent_cases b f with ⟨t, -, -, ht, hb, he⟩ | he <;> rw [he]
  · exact h t ht hb
  · exact .refl s

/-- The cycle events and the reports of the line, but for the begin of a slot occurrence. -/
def raised : Instr → Bool
  | .cycleStart | .beaconPosition _ | .beaconPositionClose _ | .slotPhaseStart | .leadIn | .slotOccurrenceEnd _ | .cycleEnd
  | .carrierStart _ | .carrierEnd _ | .frameReport .. | .jamReport _ | .readBackMismatch | .listenTimerExpiry _ => true
  | _ => false

theorem exec_conserves {c : Instr} {s t : State} (hc : raised c = true) (h : exec c s = .next t) : Conserves s t := by
  cases c with
  | cycleStart =>
    cases h
    refine State.atEvent_conserves fun u _ _ => Conserves.trans ?_ (State.drawPosition_conserves _)
    exact .untouched rfl
  | beaconPosition p =>
    cases h
    exact State.atEvent_conserves fun u _ _ =>
      (s.openDivision_conserves.trans (State.openPosition_conserves _ _ _)).trans (State.nextIs_conserves _ _)
  | beaconPositionClose p =>
    cases h
    refine State.atEvent_conserves fun u _ _ => ?_
    split
    · exact .refl s
    · exact s.closePosition_conserves u p
  | slotPhaseStart =>
    cases h
    refine State.atEvent_conserves fun u _ _ => Conserves.trans ?_ (State.nextIs_conserves _ _)
    split
    · exact s.serveClaims_conserves
    · exact .refl s
  | leadIn =>
    cases h
    refine State.unlessHeld_conserves fun _ => ?_
    split
    · exact .untouched rfl
    all_goals exact .refl s
  | slotOccurrenceEnd k =>
    cases h
    refine State.atEvent_conserves fun u _ _ => ?_
    split
    · exact .refl s
    · split
      · exact s.endOwnSlot_conserves u k _
      · exact s.endHeardSlot_conserves u k
  | cycleEnd =>
    cases h
    refine State.atEvent_conserves fun u _ _ => ?_
    exact ((s.nextIs_conserves _).trans (State.endCycle_conserves _)).trans (.untouched rfl)
  | carrierStart time =>
    cases h
    split
    · exact .refl s
    · split <;> exact .untouched rfl
  | carrierEnd time =>
    cases h
    split
    · exact .refl s
    · split
      · refine Conserves.trans (Conserves.trans ?_ (State.hears_conserves _ time)) (State.startTimer_conserves _)
        exact .untouched rfl
      · split <;> exact .untouched rfl
  | frameReport pattern bytes firstBit lastBit =>
    cases h
    refine State.unlessHeld_conserves fun _ => ?_
    split
    · split
      · exact s.hears_conserves _
      · exact (s.hears_conserves _).trans (State.takeReport_conserves _ _)
    · exact .refl s
  | jamReport time =>
    cases h
    refine State.unlessHeld_conserves fun _ => ?_
    split
    · exact .untouched rfl
    · exact s.hears_conserves _
  | readBackMismatch =>
    cases h
    refine State.unlessHeld_conserves fun _ => ?_
    split
    · exact .untouched rfl
    all_goals exact .refl s
  | listenTimerExpiry time =>
    cases h
    refine State.unlessHeld_conserves fun _ => ?_
    split
    · split
      · exact s.found_conserves time
      · exact s.startTimer_conserves
    · exact .refl s
  | _ => cases hc

/-! ## The configuration record (R23) -/

theorem config_of_view {s t : State} (h : t.stationView = s.stationView) : t.config = s.config :=
  congrArg StationView.config h

theorem State.stopRequest_config (s : State) : s.stopRequest.2.config = s.config := by
  unfold State.stopRequest
  split
  · rfl
  · rfl
  · exact s.stopEarly_conserves.config
  · exact s.stopEarly_conserves.config
  · exact s.stopActive_conserves.config
  · rfl

theorem State.startRequest_config (s : State) : s.startRequest.2.config = s.config := by
  unfold State.startRequest
  split
  · exact ((State.enter_conserves _ _ _).config.trans (State.startTimer_conserves _).config).trans s.switchOnReceiver_config
  · rfl

theorem State.configure_config {s : State} (h : s.station ≠ .unconfigured) (address : Byte) (seed : Half) (f b : Bool) :
    (State.configure address seed f b s).2.config = s.config := by
  unfold State.configure
  rw [if_neg h]
  rfl

theorem RequestCode.serve_config {s : State} (h : s.station ≠ .unconfigured) (c : RequestCode) (args : List Byte) :
    (c.serve args s).2.config = s.config := by
  cases c with
  | configure => exact State.configure_config h _ _ _ _
  | start => exact s.startRequest_config
  | stop => exact s.stopRequest_config
  | reset => rfl
  | openTx => exact config_of_view (State.openTx_stationView ..)
  | closeTx => exact config_of_view (State.closeTx_stationView ..)
  | push => exact config_of_view (State.push_stationView ..)
  | subscribe => exact config_of_view (State.subscribe_stationView ..)
  | unsubscribe => exact config_of_view (State.unsubscribe_stationView ..)
  | pop => exact congrArg _ (State.pop_state ..)
  | readEvent => exact congrArg _ s.readEvent_state
  | readStation => rfl
  | readStream => exact congrArg _ (State.readStream_state ..)
  | readSub => exact congrArg _ (State.readSub_state ..)
  | readSlot => exact congrArg _ (State.readSlot_state ..)

theorem State.request_config {s : State} {code : Byte} {args : List Byte} {serve : State → Reply × State}
    (h : (serve s).2.config = s.config) : (s.request code args serve).config = s.config := by
  rcases s.request_cases code args serve with ⟨-, -, he⟩ | ⟨-, he⟩ <;> rw [he]
  exact h

theorem State.unlessHeld_config {s : State} {f : State → State} (h : (f s).config = s.config) :
    (s.unlessHeld f).config = s.config := by
  rcases s.unlessHeld_cases f with ⟨-, he⟩ | ⟨-, he⟩ <;> rw [he]
  exact h

theorem State.takeByte_config {s : State} (hs : s.station ≠ .unconfigured) (b : Byte)
    (ht : (s.takeByte b).station ≠ .unconfigured) : (s.takeByte b).config = s.config := by
  rcases s.takeByte_cases b with ⟨l, he⟩ | ⟨code, serve, he, hserve⟩ | ⟨-, he⟩ | ⟨t, n, -, -, he⟩ <;> rw [he]
  · rcases hserve with rfl | ⟨c, args, rfl⟩
    · rfl
    · exact RequestCode.serve_config hs c args
  · rw [he] at ht
    exact absurd rfl ht
  · exact config_of_view (s.commit_stationView t.commit)

theorem State.beginSlot_config (s : State) (k : SlotNo) : (s.beginSlot k).config = s.config := by
  unfold State.beginSlot
  split
  · split <;> rfl
  · split
    · unfold State.sendOwned
      split
      · rfl
      · split <;> rfl
    · rfl
  all_goals rfl

theorem exec_config {c : Instr} {s t : State} (h : exec c s = .next t) (hs : s.station ≠ .unconfigured)
    (ht : t.station ≠ .unconfigured) : t.config = s.config := by
  by_cases hc : raised c = true
  · exact (exec_conserves hc h).config
  cases c with
  | configure => cases h; exact State.request_config (State.configure_config hs _ _ _ _)
  | start => cases h; exact State.request_config s.startRequest_config
  | stop => cases h; exact State.request_config s.stopRequest_config
  | openTx => cases h; exact State.request_config (config_of_view (State.openTx_stationView ..))
  | closeTx => cases h; exact State.request_config (config_of_view (State.closeTx_stationView ..))
  | push => cases h; exact State.request_config (config_of_view (State.push_stationView ..))
  | subscribe => cases h; exact State.request_config (config_of_view (State.subscribe_stationView ..))
  | unsubscribe => cases h; exact State.request_config (config_of_view (State.unsubscribe_stationView ..))
  | pop => cases h; exact State.request_config (congrArg _ (State.pop_state ..))
  | readEvent => cases h; exact State.request_config (congrArg _ s.readEvent_state)
  | readStation => cases h; exact State.request_config rfl
  | readStream => cases h; exact State.request_config (congrArg _ (State.readStream_state ..))
  | readSub => cases h; exact State.request_config (congrArg _ (State.readSub_state ..))
  | readSlot => cases h; exact State.request_config (congrArg _ (State.readSlot_state ..))
  | unknownCode =>
    cases h
    split
    · exact State.request_config rfl
    · rfl
  | reset =>
    cases h
    rcases s.unlessHeld_cases (fun s => if s.link.awaits RequestCode.reset.byte [] then s.deviceReset else s)
      with ⟨-, he⟩ | ⟨-, he⟩
    · rw [he]
    · rw [he] at ht ⊢
      split at ht
      · exact absurd rfl ht
      · rename_i hn; rw [if_neg hn]
  | transactionBegin =>
    cases h
    split
    · rfl
    · split <;> rfl
  | transactionEnd =>
    cases h
    split
    · rfl
    · split <;> rfl
  | consumingReadCommit =>
    cases h
    refine State.unlessHeld_config ?_
    split
    · split
      · exact config_of_view (s.commit_stationView _)
      · rfl
    all_goals rfl
  | resetInputAsserted =>
    cases h
    split at ht
    · rename_i hr; rw [if_pos hr]
    · exact absurd rfl ht
  | resetInputReleased => cases h; split <;> rfl
  | slotOccurrenceBegin k =>
    cases h
    rcases s.atEvent_cases (.slotBegin k) (fun _ s => (s.openDivision.beginSlot k).nextIs (.slotEnd k))
      with ⟨u, -, -, -, -, he⟩ | he <;> rw [he]
    exact s.openDivision.beginSlot_config k
  | byteComplete b =>
    cases h
    rcases s.unlessHeld_cases (fun s => s.takeByte b) with ⟨-, he⟩ | ⟨-, he⟩
    · rw [he]
    · rw [he] at ht ⊢
      exact State.takeByte_config hs b ht
  | _ => exact absurd rfl hc

end Sys2Proof.Machine

namespace Sys2Proof.Proofs

open Sys2Proof.Machine Sys2Proof.Safety

/-- Settles O12: outside UNCONFIGURED no request stores a configuration, and every other command keeps it. -/
theorem configurationStandsUntilReset : Obligations.ConfigurationStandsUntilReset :=
  fun _ _ _ h hs ht => exec_config h hs ht

end Sys2Proof.Proofs
end

section
/-! PROOF. The laws of the event queue, the subscriptions, the pool's count and the link after a command: these blocks'
part of O60. -/

namespace Sys2Proof.Machine

open Sys2Proof.Safety

/-! ## The laws of the store -/

/-- The laws of the event queue and the subscriptions, and each buffer in one place. -/
structure StoreLegal (s : State) : Prop where
  events : EventsLegal s
  subs : SubsLegal s
  once : ∀ b : BufferNo, s.buffers.count b = 1

theorem StoreLegal.of_legal {s : State} (h : Legal s) : StoreLegal s := ⟨h.events, h.subs, h.pool.once⟩

theorem eventsLegal_posts {s t : State} (h : EventsLegal s) (p : Posts s.events t.events) : EventsLegal t := by
  obtain ⟨rs, he⟩ := p
  induction rs generalizing s with
  | nil => exact h.congr he
  | cons r rs ih => exact ih (s := { s with events := enqueueEvent s.events r }) (h.enqueue rfl) he

theorem StoreLegal.conserved {s t : State} (h : StoreLegal s) (k : Conserves s t) : StoreLegal t :=
  ⟨eventsLegal_posts h.events k.events, subsLegal_of_keeps h.subs k.subs, fun b => (k.buffers b).trans (h.once b)⟩

/-- The laws of the store are about these blocks only. -/
theorem StoreLegal.congr {s t : State} (h : StoreLegal s) (events : t.events = s.events) (subs : t.subs = s.subs)
    (buffers : t.buffers = s.buffers) : StoreLegal t where
  events := h.events.congr events
  subs := subsLegal_of_keeps h.subs fun e => by rw [subs]; exact .refl _
  once b := by rw [buffers]; exact h.once b

/-! ## The link -/

theorem head?_of_prefix {α : Type} {l m : List α} {a : α} (h : l <+: m) (ha : l.head? = some a) : m.head? = some a := by
  obtain ⟨r, rfl⟩ := h
  cases l with
  | nil => cases ha
  | cons b l => exact ha

/-- A pending commit stays in order while its queue is only added to. -/
theorem commitLegal_of_prefix {s t : State} {k : Taken} (events : s.events <+: t.events)
    (queues : ∀ e : EntryNo, s.subs[e].queue <+: t.subs[e].queue) (h : commitLegal s k = true) :
    commitLegal t k = true := by
  unfold commitLegal at h ⊢
  cases hc : k.commit with
  | none => rfl
  | some target =>
    cases target with
    | eventQueue =>
      simp only [hc, beq_iff_eq, Option.map_eq_some_iff] at h ⊢
      obtain ⟨r, hr, hb⟩ := h
      exact ⟨r, head?_of_prefix events hr, hb⟩
    | receiveQueue e =>
      simp only [hc, beq_iff_eq, Option.map_eq_some_iff] at h ⊢
      obtain ⟨r, hr, hb⟩ := h
      exact ⟨r, head?_of_prefix (queues e) hr, hb⟩

theorem phaseLegal_of_prefix {s t : State} (link : t.link = s.link) (events : s.events <+: t.events)
    (queues : ∀ e : EntryNo, s.subs[e].queue <+: t.subs[e].queue) (h : phaseLegal s = true) :
    phaseLegal t = true := by
  unfold phaseLegal at h ⊢
  rw [link]
  cases hl : s.link with
  | turnaround k => rw [hl] at h; exact commitLegal_of_prefix events queues h
  | status k => rw [hl] at h; exact commitLegal_of_prefix events queues h
  | response k n =>
    simp only [hl, Bool.and_eq_true] at h ⊢
    exact ⟨commitLegal_of_prefix events queues h.1, h.2⟩
  | arguments code received => rw [hl] at h; exact h
  | _ => rfl

/-- What conserves the blocks keeps the laws of the link, where it moves no station state under reset. -/
theorem linkLegal_conserved {s t : State} (h : LinkLegal s) (k : Conserves s t)
    (station : s.resetHeld = true → t.station = s.station) : LinkLegal t where
  phase := phaseLegal_of_prefix k.link k.events.isPrefix (fun e => (k.subs e).queue) h.phase
  idleBySelect := by rw [k.resetHeld, k.link, k.selectLow]; exact h.idleBySelect
  heldQuiet hh := by
    rw [k.resetHeld] at hh
    rw [station hh, k.link]
    exact h.heldQuiet hh

/-- A phase other than IDLE, of a link with select low and no reset. -/
theorem linkLegal_phase {s : State} (held : s.resetHeld = false) (select : s.selectLow = true) (hi : s.link ≠ .idle)
    (phase : phaseLegal s = true) : LinkLegal s where
  phase := phase
  idleBySelect _ := ⟨fun h => absurd h hi, fun h => nomatch select.symm.trans h⟩
  heldQuiet h := nomatch held.symm.trans h

theorem select_of_phase {s : State} (h : LinkLegal s) (held : s.resetHeld = false) (hi : s.link ≠ .idle) :
    s.selectLow = true := by
  rw [← Bool.not_eq_false, ← h.idleBySelect held]
  exact hi

/-! ## Requests -/

/-- A request served leaves the laws of the store, the levels, and a commit of the record it answers with. -/
structure Served (s : State) (r : Reply × State) : Prop where
  store : StoreLegal r.2
  resetHeld : r.2.resetHeld = s.resetHeld
  selectLow : r.2.selectLow = s.selectLow
  commit : ∀ code : Byte, commitLegal r.2
    { code := code, status := r.1.status, response := r.1.response, commit := r.1.commit } = true

theorem Served.same {s : State} (h : StoreLegal s) {r : Reply} (hr : r.commit = none) : Served s (r, s) :=
  ⟨h, rfl, rfl, fun _ => by unfold commitLegal; simp [hr]⟩

theorem Served.effect {s u : State} (h : StoreLegal u) (resetHeld : u.resetHeld = s.resetHeld)
    (selectLow : u.selectLow = s.selectLow) : Served s u.accept := ⟨h, resetHeld, selectLow, fun _ => rfl⟩

theorem Served.conserved {s u : State} (h : StoreLegal s) (k : Conserves s u) : Served s u.accept :=
  .effect (h.conserved k) k.resetHeld k.selectLow

theorem Served.refused {s : State} (h : StoreLegal s) (status : Status) : Served s (s.refuse status) := .same h rfl

/-- A request taken leaves the laws of the store and of the link. -/
theorem taken_blocks {s : State} (link : LinkLegal s) (held : s.resetHeld = false) (hi : s.link ≠ .idle) (code : Byte)
    {serve : State → Reply × State} (h : Served s (serve s)) :
    StoreLegal (s.taken code serve) ∧ LinkLegal (s.taken code serve) := by
  refine ⟨h.store.congr rfl rfl rfl, linkLegal_phase (h.resetHeld.trans held) ?_ nofun (h.commit code)⟩
  exact h.selectLow.trans (select_of_phase link held hi)

/-! ### Each request -/

theorem State.configure_served {s : State} (h : StoreLegal s) (address : Byte) (seed : Half) (f b : Bool) :
    Served s (State.configure address seed f b s) := by
  unfold State.configure
  split
  · split
    · exact .refused h _
    · rename_i c _
      have hc : StoreLegal { s with config := c, draws := 0 } := h.congr rfl rfl rfl
      exact ⟨hc.conserved (State.enter_conserves _ _ _), rfl, rfl, fun _ => rfl⟩
  · exact .refused h _

theorem State.switchOnReceiver_conserves (s : State) : Conserves s s.switchOnReceiver := by
  unfold State.switchOnReceiver
  split <;> exact .untouched rfl

theorem State.startRequest_served {s : State} (h : StoreLegal s) : Served s s.startRequest := by
  unfold State.startRequest
  split
  · exact .conserved h
      ((s.switchOnReceiver_conserves.trans (State.startTimer_conserves _)).trans (State.enter_conserves _ _ _))
  · exact .refused h _

theorem State.stopRequest_served {s : State} (h : StoreLegal s) : Served s s.stopRequest := by
  unfold State.stopRequest
  split
  · exact .refused h _
  · exact .same h rfl
  · exact .conserved h s.stopEarly_conserves
  · exact .conserved h s.stopEarly_conserves
  · exact .conserved h s.stopActive_conserves
  · exact .same h rfl

theorem State.openTx_served {s : State} (h : Legal s) (stream tag wanted : Byte) :
    Served s (State.openTx stream tag wanted s) := by
  have hs := StoreLegal.of_legal h
  unfold State.openTx
  split
  · exact .refused hs _
  · split
    · exact .refused hs _
    · rename_i i _
      split
      · exact .refused hs _
      · split
        · exact .refused hs _
        · rename_i hidle
          rw [not_not] at hidle
          split
          · exact .refused hs _
          · exact .conserved hs (s.modStream_conserves i _ (h.pool.emptyWhenClosed i (.inl hidle)).symm)

theorem State.closeTx_served {s : State} (h : StoreLegal s) (stream : Byte) : Served s (State.closeTx stream s) := by
  unfold State.closeTx
  split
  · exact .refused h _
  · split
    · exact .refused h _
    · exact .refused h _
    · exact .conserved h (s.closeStream_conserves _)
    · exact .conserved h (s.closeStream_conserves _)
    · exact .conserved h (s.closeFailed_conserves _)

/-- A pushed block's buffer goes from the free list to the tail of its queue (R108). -/
theorem State.pushBlock_conserves {s : State} {b : BufferNo} (hb : b ∈ s.freeList) (i : StreamNo) (payload : Payload) :
    Conserves s ((s.allocate b).modStream i fun r => { r with queue := r.queue ++ [{ buffer := b, data := payload }] }) := by
  refine ⟨rfl, rfl, rfl, rfl, .refl _, fun _ => .refl _, fun c => ?_⟩
  have hx : ((s.allocate b).modStream i fun r =>
        { r with queue := r.queue ++ [{ buffer := b, data := payload }] }).txBuffers.count c +
      s.streams[i].buffers.count c = s.txBuffers.count c + (s.streams[i].buffers ++ [b]).count c := by
    have h := (s.allocate b).modStream_txBuffers i
      (fun r => { r with queue := r.queue ++ [{ buffer := b, data := payload }] }) c
    have hq : ({ s.streams[i] with
        queue := s.streams[i].queue ++ [{ buffer := b, data := payload }] } : Stream).buffers =
        s.streams[i].buffers ++ [b] := List.map_append
    rw [← hq]
    exact h
  have hf := s.allocate_gives hb c
  rw [List.count_append] at hx
  rw [State.buffers_count, State.buffers_count s]
  change (s.allocate b).freeList.count c + _ + (s.inTransit.toList.map (·.block.buffer)).count c +
    s.rxBuffers.count c = _
  omega

theorem State.push_served {s : State} (h : StoreLegal s) (stream : Byte) (payload : Payload) :
    Served s (State.push stream payload s) := by
  unfold State.push
  split
  · exact .refused h _
  · split
    · exact .refused h _
    · split
      · exact .refused h _
      · rcases s.givenBuffer_cases with ⟨-, hg⟩ | ⟨b, hb, hg⟩
        · simp only [hg]; exact .refused h _
        · simp only [hg]; exact .conserved h (State.pushBlock_conserves hb _ payload)

theorem addressArg_ne_zero {b : Byte} {a : Address} (h : addressArg b = some a) : a ≠ 0 := by
  unfold addressArg at h
  split at h
  · rename_i hr
    cases h
    change b.setWidth 5 ≠ 0
    bv_omega
  · cases h

theorem SubState.used_iff {x : SubState} : x.used = true ↔ x ≠ .idle := by cases x <;> simp [SubState.used]

/-- The pairs of the used entries differ where the pair of a new entry is not taken (R127). -/
theorem State.pairTaken_false {s : State} {e : EntryNo} {source : Address} {tag : Byte}
    (h : s.pairTaken e source tag = false) {d : EntryNo} (hde : d ≠ e) (hd : s.subs[d].state ≠ .idle) :
    (s.subs[d].source, s.subs[d].tag) ≠ (source, tag) := by
  intro hp
  obtain ⟨hsource, htag⟩ := Prod.mk.inj hp
  refine List.any_eq_false.mp h d (List.mem_finRange d) ?_
  simp only [Bool.and_eq_true, bne_iff_ne, beq_iff_eq]
  exact ⟨⟨⟨hde, SubState.used_iff.mpr hd⟩, hsource⟩, htag⟩

/-- An entry that begins to follow a remote stream no other entry follows (R127). -/
theorem State.subscribed_store {s : State} (h : StoreLegal s) {e : EntryNo} {source : Address} {tag : Byte}
    (hsource : source ≠ 0) (hpair : s.pairTaken e source tag = false) :
    StoreLegal (s.modSub e fun r =>
      { r with state := .waiting, source := source, tag := tag, expected := none, quietCount := 0
               presence := false }) := by
  obtain ⟨fits, pairs⟩ := (subsLegal_iff s).mp h.subs
  refine ⟨h.events.congr rfl, (subsLegal_iff _).mpr ⟨fun d => ?_, fun d f hdf => ?_⟩, fun b => ?_⟩
  · rw [State.modSub_get]
    split
    · refine ⟨(fits e).queueRoom, zero_lt_lease, fun _ => rfl, nofun, fun _ => rfl, fun _ => hsource⟩
    · exact fits d
  · rw [State.modSub_get, State.modSub_get]
    split
    · rename_i hd
      subst hd
      rw [if_neg hdf]
      exact fun _ hf => (State.pairTaken_false hpair (Ne.symm hdf) hf).symm
    · split
      · rename_i hd hf
        subst hf
        exact fun hd _ => State.pairTaken_false hpair hdf hd
      · exact pairs d f hdf
  · rw [← h.once b]
    exact s.modSub_buffers e _ rfl b

/-- An entry that follows nothing any more, its queue freed (R128). -/
theorem State.unsubscribed_store {s : State} (h : StoreLegal s) (e : EntryNo) :
    StoreLegal ((s.release s.subs[e].buffers).modSub e fun r =>
      { r with state := .idle, expected := none, quietCount := 0, presence := false, queue := [] }) := by
  obtain ⟨fits, pairs⟩ := (subsLegal_iff s).mp h.subs
  refine ⟨h.events.congr rfl, (subsLegal_iff _).mpr ⟨fun d => ?_, fun d f hdf => ?_⟩, fun b => ?_⟩
  · rw [State.modSub_get]
    split
    · exact ⟨Nat.zero_le _, zero_lt_lease, fun _ => rfl, fun _ => ⟨rfl, rfl, rfl⟩, fun _ => rfl, fun hne => absurd rfl hne⟩
    · exact fits d
  · rw [State.modSub_get, State.modSub_get]
    split
    · exact fun hd => absurd rfl hd
    · split
      · exact fun _ hf => absurd rfl hf
      · exact pairs d f hdf
  · have hx : ((s.release s.subs[e].buffers).modSub e fun r =>
          { r with state := .idle, expected := none, quietCount := 0, presence := false, queue := [] }).rxBuffers.count b +
        s.subs[e].buffers.count b = s.rxBuffers.count b + 0 :=
      (s.release s.subs[e].buffers).modSub_rxBuffers e _ b
    have hs := h.once b
    rw [State.buffers_count] at hs ⊢
    have hf : (s.release s.subs[e].buffers).freeList.count b = s.freeList.count b + s.subs[e].buffers.count b :=
      List.count_append
    change (s.release s.subs[e].buffers).freeList.count b + s.txBuffers.count b +
      (s.inTransit.toList.map (·.block.buffer)).count b + _ = 1
    omega

theorem State.subscribe_served {s : State} (h : StoreLegal s) (entry source tag : Byte) :
    Served s (State.subscribe entry source tag s) := by
  unfold State.subscribe
  split
  · exact .refused h _
  · split
    · split
      · exact .refused h _
      · split
        · exact .refused h _
        · split
          · exact .refused h _
          · rename_i e a _ ha _ _ hpair
            exact .effect (State.subscribed_store h (addressArg_ne_zero ha) (by simpa using hpair)) rfl rfl
    · exact .refused h _
    · exact .refused h _

theorem State.unsubscribe_served {s : State} (h : StoreLegal s) (entry : Byte) :
    Served s (State.unsubscribe entry s) := by
  unfold State.unsubscribe
  split
  · exact .refused h _
  · split
    · exact .refused h _
    · exact .effect (State.unsubscribed_store h _) rfl rfl

theorem State.pop_served {s : State} (h : StoreLegal s) (entry : Byte) : Served s (State.pop entry s) := by
  unfold State.pop
  split
  · exact .refused h _
  · split
    · exact .refused h _
    · rename_i e _ block rest hq
      refine ⟨h, rfl, rfl, fun _ => ?_⟩
      simp only [commitLegal, Reply.consuming, hq]
      exact beq_self_eq_true _

theorem State.readEvent_served {s : State} (h : StoreLegal s) : Served s s.readEvent := by
  unfold State.readEvent
  split
  · exact .refused h _
  · rename_i r rest hq
    refine ⟨h, rfl, rfl, fun _ => ?_⟩
    simp only [commitLegal, Reply.consuming, hq]
    exact beq_self_eq_true _

theorem State.readStream_served {s : State} (h : StoreLegal s) (stream : Byte) : Served s (State.readStream stream s) := by
  unfold State.readStream
  split
  · exact .refused h _
  · exact .same h rfl

theorem State.readSub_served {s : State} (h : StoreLegal s) (entry : Byte) : Served s (State.readSub entry s) := by
  unfold State.readSub
  split
  · exact .refused h _
  · exact .same h rfl

theorem State.readSlot_served {s : State} (h : StoreLegal s) (slot : Byte) : Served s (State.readSlot slot s) := by
  unfold State.readSlot
  split
  · exact .refused h _
  · exact .same h rfl

theorem RequestCode.serve_served {s : State} (h : Legal s) (c : RequestCode) (args : List Byte) :
    Served s (c.serve args s) := by
  have hs := StoreLegal.of_legal h
  cases c with
  | configure => exact State.configure_served hs _ _ _ _
  | start => exact State.startRequest_served hs
  | stop => exact State.stopRequest_served hs
  | reset => exact .same hs rfl
  | openTx => exact State.openTx_served h _ _ _
  | closeTx => exact State.closeTx_served hs _
  | push => exact State.push_served hs _ _
  | subscribe => exact State.subscribe_served hs _ _ _
  | unsubscribe => exact State.unsubscribe_served hs _
  | pop => exact State.pop_served hs _
  | readEvent => exact State.readEvent_served hs
  | readStation => exact .same hs rfl
  | readStream => exact State.readStream_served hs _
  | readSub => exact State.readSub_served hs _
  | readSlot => exact State.readSlot_served hs _

/-! ## The commit of a consuming read (R170) -/

theorem eventsLegal_tail {s t : State} (h : EventsLegal s) (he : t.events = s.events.tail) : EventsLegal t := by
  refine ⟨?_, fun r hr => ?_, fun hf => ?_⟩
  · rw [he, List.length_tail]
    exact (Nat.sub_le _ _).trans h.capacity
  · rw [he, ← List.tail_dropLast] at hr
    exact h.overflowIsLast r (List.mem_of_mem_tail hr)
  · rw [he, List.length_tail] at hf
    have hc := h.capacity
    have h32 : Config.eventRecords = 32 := rfl
    omega

theorem State.popHead_store {s : State} (h : StoreLegal s) (e : EntryNo) : StoreLegal (s.popHead e) := by
  unfold State.popHead
  split
  · exact h
  · rename_i d rest hq
    obtain ⟨fits, pairs⟩ := (subsLegal_iff s).mp h.subs
    refine ⟨h.events.congr rfl, (subsLegal_iff _).mpr ⟨fun f => ?_, fun f g hfg => ?_⟩, fun b => ?_⟩
    · rw [State.modSub_get]
      split
      · have hf := fits e
        have hroom := hf.queueRoom
        rw [hq, List.length_cons] at hroom
        exact ⟨(Nat.le_succ _).trans hroom, hf.quietRange, hf.quietOnlyActive,
          fun hi => absurd ((hf.idleEmpty hi).1.symm.trans hq) (List.cons_ne_nil _ _).symm, hf.noExpectation, hf.sourceNamed⟩
      · exact fits f
    · have same (f : EntryNo) : ((s.release [d.buffer]).modSub e fun r => { r with queue := rest }).subs[f].state =
          s.subs[f].state ∧ ((s.release [d.buffer]).modSub e fun r => { r with queue := rest }).subs[f].source =
          s.subs[f].source ∧ ((s.release [d.buffer]).modSub e fun r => { r with queue := rest }).subs[f].tag =
          s.subs[f].tag := by
        rw [State.modSub_get]
        split
        · rename_i he; subst he; exact ⟨rfl, rfl, rfl⟩
        · exact ⟨rfl, rfl, rfl⟩
      rw [(same f).1, (same f).2.1, (same f).2.2, (same g).1, (same g).2.1, (same g).2.2]
      exact pairs f g hfg
    · have hx : ((s.release [d.buffer]).modSub e fun r => { r with queue := rest }).rxBuffers.count b +
          s.subs[e].buffers.count b = s.rxBuffers.count b + (rest.map (·.buffer)).count b :=
        (s.release [d.buffer]).modSub_rxBuffers e _ b
      have hh : s.subs[e].buffers.count b = [d.buffer].count b + (rest.map (·.buffer)).count b := by
        rw [Subscription.buffers, hq, ← List.count_append]; rfl
      have hf : (s.release [d.buffer]).freeList.count b = s.freeList.count b + [d.buffer].count b := List.count_append
      have hs := h.once b
      rw [State.buffers_count] at hs ⊢
      change (s.release [d.buffer]).freeList.count b + s.txBuffers.count b +
        (s.inTransit.toList.map (·.block.buffer)).count b + _ = 1
      omega

theorem State.commit_store {s : State} (h : StoreLegal s) (target : Option CommitTarget) :
    StoreLegal (s.commit target) := by
  unfold State.commit
  split
  · exact h
  · exact ⟨eventsLegal_tail h.events rfl, subsLegal_of_keeps h.subs fun _ => .refl _, h.once⟩
  · exact State.popHead_store h _

theorem State.commit_levels (s : State) (target : Option CommitTarget) :
    (s.commit target).resetHeld = s.resetHeld ∧ (s.commit target).selectLow = s.selectLow := by
  rcases s.commit_cases target with h | ⟨-, h⟩ | ⟨e, b, rest, -, -, h⟩ <;> rw [h] <;> exact ⟨rfl, rfl⟩

/-- The end of a transaction leaves the laws of the store and of the link. -/
theorem finish_blocks {s : State} (h : StoreLegal s) (link : LinkLegal s) (held : s.resetHeld = false)
    (hi : s.link ≠ .idle) (k : Taken) : StoreLegal (s.finishTransaction k) ∧ LinkLegal (s.finishTransaction k) := by
  obtain ⟨hr, hs⟩ := s.commit_levels k.commit
  refine ⟨(State.commit_store h k.commit).congr rfl rfl rfl, linkLegal_phase (hr.trans held) ?_ nofun rfl⟩
  exact hs.trans (select_of_phase link held hi)

/-! ## A device reset (R20) -/

theorem deviceReset_store (s : State) : StoreLegal s.deviceReset :=
  (StoreLegal.of_legal Proofs.resetStateIsLegal).congr rfl rfl rfl

theorem deviceReset_blocks {s : State} (held : s.resetHeld = false) :
    StoreLegal s.deviceReset ∧ LinkLegal s.deviceReset := by
  refine ⟨deviceReset_store s, ?_, fun _ => ?_, fun hh => nomatch held.symm.trans hh⟩
  · cases hs : s.selectLow <;> simp [phaseLegal, State.deviceReset, hs]
  · cases hs : s.selectLow <;> simp [State.deviceReset, hs]

/-! ## Bytes of the link (R162, R164) -/

/-- The link moves on to another phase of the transaction. -/
theorem move_blocks {s : State} (h : StoreLegal s) (link : LinkLegal s) (held : s.resetHeld = false)
    (hi : s.link ≠ .idle) {l : Link} (hl : l ≠ .idle) (phase : phaseLegal { s with link := l } = true) :
    StoreLegal { s with link := l } ∧ LinkLegal { s with link := l } := by
  have select := select_of_phase link held hi
  exact ⟨h.congr rfl rfl rfl, linkLegal_phase held select hl phase⟩

theorem takeByte_blocks {s : State} (L : Legal s) (held : s.resetHeld = false) (b : Byte) :
    StoreLegal (s.takeByte b) ∧ LinkLegal (s.takeByte b) := by
  have h := StoreLegal.of_legal L
  have same : StoreLegal s ∧ LinkLegal s := ⟨h, L.link⟩
  have phase := L.link.phase
  unfold State.takeByte
  split
  · exact same
  · exact same
  · rename_i hl
    have hi : s.link ≠ .idle := by rw [hl]; exact nofun
    split
    · exact taken_blocks L.link held hi b (.refused h _)
    · exact deviceReset_blocks held
    · rename_i c _ hc
      split
      · exact taken_blocks L.link held hi b (RequestCode.serve_served L c [])
      · refine move_blocks h L.link held hi nofun ?_
        simp only [phaseLegal, hc, decide_eq_true_eq]
        exact Nat.pos_of_ne_zero ‹_›
  · rename_i code received hl
    have hi : s.link ≠ .idle := by rw [hl]; exact nofun
    split
    · exact same
    · rename_i c hc
      split
      · refine move_blocks h L.link held hi nofun ?_
        simpa [phaseLegal, hc] using ‹received.length + 1 < c.argumentBytes›
      · exact taken_blocks L.link held hi code (RequestCode.serve_served L c _)
  · rename_i k hl
    rw [phaseLegal, hl] at phase
    exact move_blocks h L.link held (by rw [hl]; exact nofun) nofun phase
  · rename_i k hl
    rw [phaseLegal, hl] at phase
    have hi : s.link ≠ .idle := by rw [hl]; exact nofun
    split
    · exact move_blocks h L.link held hi nofun rfl
    · rename_i hr
      refine move_blocks h L.link held hi nofun ?_
      simp only [phaseLegal, Bool.and_eq_true, decide_eq_true_eq]
      exact ⟨phase, List.length_pos_iff.mpr hr⟩
  · rename_i k n hl
    rw [phaseLegal, hl] at phase
    have hi : s.link ≠ .idle := by rw [hl]; exact nofun
    split
    · refine move_blocks h L.link held hi nofun ?_
      simp only [phaseLegal, Bool.and_eq_true, decide_eq_true_eq] at phase ⊢
      exact ⟨phase.1, ‹_›⟩
    · exact finish_blocks h L.link held hi k

/-! ## Every command -/

theorem request_blocks {s : State} (L : Legal s) {code : Byte} {args : List Byte} {serve : State → Reply × State}
    (h : Served s (serve s)) : StoreLegal (s.request code args serve) ∧ LinkLegal (s.request code args serve) := by
  rcases s.request_cases code args serve with ⟨held, ha, he⟩ | ⟨-, he⟩ <;> rw [he]
  · refine taken_blocks L.link held (fun hi => ?_) code h
    rw [hi] at ha
    cases ha
  · exact ⟨.of_legal L, L.link⟩

theorem unlessHeld_blocks {s : State} (L : Legal s) {f : State → State}
    (h : s.resetHeld = false → StoreLegal (f s) ∧ LinkLegal (f s)) :
    StoreLegal (s.unlessHeld f) ∧ LinkLegal (s.unlessHeld f) := by
  rcases s.unlessHeld_cases f with ⟨-, he⟩ | ⟨hh, he⟩ <;> rw [he]
  · exact ⟨.of_legal L, L.link⟩
  · exact h hh

/-- While the reset input is asserted no command but its release moves the station state (R20). -/
theorem station_held {c : Instr} {s t : State} (L : Legal s) (h : exec c s = .next t) (hc : c ≠ .resetInputReleased)
    (held : s.resetHeld = true) : t.station = s.station := by
  rw [Proofs.heldResetKeepsEveryBlock c s t held L.link hc h]

theorem execTransactionBegin_blocks {s t : State} (L : Legal s) (h : execTransactionBegin s = .next t) :
    StoreLegal t ∧ LinkLegal t := by
  have hs := StoreLegal.of_legal L
  obtain ⟨phase, idleBySelect, heldQuiet⟩ := L.link
  cases h
  split
  · exact ⟨hs, phase, idleBySelect, heldQuiet⟩
  · rename_i hlow
    split
    · rename_i hn
      exact ⟨hs.congr rfl rfl rfl, linkLegal_phase hn.1 rfl nofun rfl⟩
    · rename_i hn
      refine ⟨hs.congr rfl rfl rfl, phase, fun held => ?_, heldQuiet⟩
      exact absurd ⟨held, (idleBySelect held).mpr (Bool.eq_false_iff.mpr hlow)⟩ hn

theorem execTransactionEnd_blocks {s t : State} (L : Legal s) (h : execTransactionEnd s = .next t) :
    StoreLegal t ∧ LinkLegal t := by
  have hs := StoreLegal.of_legal L
  obtain ⟨phase, idleBySelect, heldQuiet⟩ := L.link
  cases h
  split
  · exact ⟨hs, phase, idleBySelect, heldQuiet⟩
  · split
    · rename_i held
      exact ⟨hs.congr rfl rfl rfl, phase, fun hn => (nomatch held.symm.trans hn), heldQuiet⟩
    · rename_i held
      exact ⟨hs.congr rfl rfl rfl, rfl, fun _ => iff_of_true rfl rfl, fun hh => absurd hh held⟩

theorem execConsumingReadCommit_blocks {s t : State} (L : Legal s) (h : execConsumingReadCommit s = .next t) :
    StoreLegal t ∧ LinkLegal t := by
  cases h
  refine unlessHeld_blocks L fun held => ?_
  have h := StoreLegal.of_legal L
  split
  · rename_i k n hl
    split
    · exact finish_blocks h L.link held (by rw [hl]; exact nofun) k
    · exact ⟨h, L.link⟩
  all_goals exact ⟨h, L.link⟩

theorem execResetInput_blocks {s t : State} (L : Legal s)
    (h : execResetInputAsserted s = .next t ∨ execResetInputReleased s = .next t) : StoreLegal t ∧ LinkLegal t := by
  have hs := StoreLegal.of_legal L
  rcases h with h | h <;> cases h <;> split
  · exact ⟨hs, L.link⟩
  · refine ⟨(deviceReset_store s).congr rfl rfl rfl, ?_, nofun, fun _ => ⟨rfl, ?_⟩⟩
    · cases hl : s.selectLow <;> simp [phaseLegal, State.deviceReset, hl]
    · cases hl : s.selectLow <;> simp [State.deviceReset, hl]
  · refine ⟨hs.congr rfl rfl rfl, ?_, fun _ => ?_, nofun⟩
    · cases hl : s.selectLow <;> simp [phaseLegal]
    · cases hl : s.selectLow <;> simp
  · exact ⟨hs, L.link⟩

theorem exec_blocks {c : Instr} {s t : State} (L : Legal s) (h : exec c s = .next t) : StoreLegal t ∧ LinkLegal t := by
  have hs := StoreLegal.of_legal L
  have conserved (hc : c ≠ .resetInputReleased) (k : Conserves s t) : StoreLegal t ∧ LinkLegal t :=
    ⟨hs.conserved k, linkLegal_conserved L.link k (station_held L h hc)⟩
  by_cases hc : raised c = true
  · exact conserved (by rintro rfl; cases hc) (exec_conserves hc h)
  cases c with
  | configure => cases h; exact request_blocks L (State.configure_served hs _ _ _ _)
  | start => cases h; exact request_blocks L (State.startRequest_served hs)
  | stop => cases h; exact request_blocks L (State.stopRequest_served hs)
  | openTx => cases h; exact request_blocks L (State.openTx_served L _ _ _)
  | closeTx => cases h; exact request_blocks L (State.closeTx_served hs _)
  | push => cases h; exact request_blocks L (State.push_served hs _ _)
  | subscribe => cases h; exact request_blocks L (State.subscribe_served hs _ _ _)
  | unsubscribe => cases h; exact request_blocks L (State.unsubscribe_served hs _)
  | pop => cases h; exact request_blocks L (State.pop_served hs _)
  | readEvent => cases h; exact request_blocks L (State.readEvent_served hs)
  | readStation => cases h; exact request_blocks L (.same hs rfl)
  | readStream => cases h; exact request_blocks L (State.readStream_served hs _)
  | readSub => cases h; exact request_blocks L (State.readSub_served hs _)
  | readSlot => cases h; exact request_blocks L (State.readSlot_served hs _)
  | unknownCode =>
    cases h
    split
    · exact request_blocks L (.refused hs _)
    · exact ⟨hs, L.link⟩
  | reset =>
    cases h
    refine unlessHeld_blocks L fun held => ?_
    split
    · exact deviceReset_blocks held
    · exact ⟨hs, L.link⟩
  | transactionBegin => exact execTransactionBegin_blocks L h
  | transactionEnd => exact execTransactionEnd_blocks L h
  | consumingReadCommit => exact execConsumingReadCommit_blocks L h
  | resetInputAsserted => exact execResetInput_blocks L (.inl h)
  | resetInputReleased => exact execResetInput_blocks L (.inr h)
  | slotOccurrenceBegin k =>
    refine conserved nofun ?_
    cases h
    refine State.atEvent_conserves fun u hu hb => ?_
    have quiet : s.inTransit = none :=
      transit_none_of_boundary L.pool hu fun j hj => nomatch hb.symm.trans hj
    exact (s.openDivision_conserves.trans (State.beginSlot_conserves (s := s.openDivision) quiet k)).trans
      (State.nextIs_conserves _ _)
  | byteComplete b => cases h; exact unlessHeld_blocks L fun held => takeByte_blocks L held b
  | _ => exact absurd rfl hc

end Sys2Proof.Machine
end

section
/-! PROOF. The laws of the slot map, the claim engine, the streams and the in-transit block, as one law of the working
part of a state for each stream: the ground of the rest of O60. -/

namespace Sys2Proof.Machine

open Sys2Proof.Safety

/-! ## The laws of the working part -/

/-- What the laws say of one stream record by itself, in this station state and with this bound on its deferral (R84,
R104 to R106). -/
structure Stream.Fits (D : Nat) (st : StationState) (r : Stream) : Prop where
  wantedRange : 1 ≤ r.wanted ∧ r.wanted ≤ 4
  heldOnce : r.held.Nodup
  heldRoom : r.held.length ≤ r.wanted
  liveHolds : r.state = .live → r.held.length = r.wanted
  idleHolds : r.state = .idle ∨ r.state = .failed → r.held = []
  closingHolds : r.state = .closing → r.held ≠ []
  attemptsRange : r.attempts < Config.attemptLimit
  backoffRange : r.backoff < 32
  deferralRange : r.deferral < D
  claimFieldsClear : r.state ≠ .claiming →
    r.attempts = 0 ∧ r.backoff = 0 ∧ r.deferral = 0 ∧ r.shortPosted = false
  failureHeld : r.failure.isSome = true ↔ r.state = .failed
  leavingCloses : st = .leaving → r.state = .idle ∨ r.state = .closing
  liveOnlyActive : st ≠ .active → r.state ≠ .live
  closingOnlyOnTimeline : st ≠ .active → st ≠ .leaving → r.state ≠ .closing
  emptyWhenClosed : r.state = .idle ∨ r.state = .closing → r.queue = []
  queueRoom : r.queue.length ≤ Config.txBlocks

/-- A lane that carries this stream (R88, R92). -/
structure Stream.Laned (r : Stream) (lane : Lane) : Prop where
  claiming : r.state = .claiming
  ready : r.backoff = 0 ∧ r.deferral = 0
  room : r.held.length < r.wanted
  cleanRange : lane.cleanCount < Config.probeCycles

/-- A queued stream (R87). -/
structure Stream.Queued (r : Stream) : Prop where
  claiming : r.state = .claiming
  ready : r.backoff = 0
  room : r.held.length < r.wanted

/-- A stream with its block in transit (R106). -/
structure Stream.Carries (r : Stream) (b : InTransit) : Prop where
  room : r.queue.length < Config.txBlocks
  returns : b.disposal = .returnToQueue → r.state ≠ .idle ∧ r.state ≠ .closing

/-- What the laws say of one stream and its place in the working part. -/
structure StreamFits (D : Nat) (st : StationState) (w : Work) (i : StreamNo) : Prop where
  record : w.streams[i].Fits D st
  heldMine : ∀ k : SlotNo, k ∈ w.streams[i].held ↔ w.map[k].isMineOf i = true
  final : ∀ (k : SlotNo) (c : Nat) (f : Bool), w.map[k] = .mine i c f → f = (w.streams[i].state == .closing)
  laned : ∀ l : LaneNo, ∀ r ∈ w.lanes[l], r.stream = i → w.streams[i].Laned r ∧ i ∉ w.claimQueue
  queued : i ∈ w.claimQueue → w.streams[i].Queued
  transit : ∀ b ∈ w.inTransit, b.stream = i → w.streams[i].Carries b ∧ w.map[b.slot].isMineOf i = true

/-- The lanes and the PROBE entries (R58, R83). -/
structure LaneLaws (map : Vector MapEntry 48) (lanes : Vector (Option Lane) 2) : Prop where
  lanesProbe : ∀ l : LaneNo, ∀ r ∈ lanes[l], map[r.slot] = .probe l r.stream
  probesLaned : ∀ (k : SlotNo) (l : LaneNo) (i : StreamNo), map[k] = .probe l i →
    ∃ r ∈ lanes[l], r.slot = k ∧ r.stream = i
  lanesDiffer : ∀ l m : LaneNo, l ≠ m → ∀ r ∈ lanes[l], ∀ q ∈ lanes[m], r.stream ≠ q.stream

/-- The laws of the working part, in this station state and with these bounds on the deferrals. -/
structure WorkFits (D : StreamNo → Nat) (st : StationState) (w : Work) : Prop where
  stream : ∀ i : StreamNo, StreamFits (D i) st w i
  lanes : LaneLaws w.map w.lanes
  queueOnce : w.claimQueue.Nodup
  onlyActive : st ≠ .active → w.claimQueue = [] ∧ ∀ l : LaneNo, w.lanes[l] = none
  tagsDiffer : ∀ i j : StreamNo, i ≠ j → w.streams[i].state ≠ .idle → w.streams[j].state ≠ .idle →
    w.streams[i].tag ≠ w.streams[j].tag

/-- The bound on every deferral between the commands (R90). -/
def deferBound : StreamNo → Nat := fun _ => Config.deferLimit

/-- The in-transit block and the frame under way (R106, R110). -/
structure TransitFits (s : State) : Prop where
  onTimeline : ∀ b ∈ s.inTransit, s.station = .active ∨ s.station = .leaving
  due : ∀ b ∈ s.inTransit, s.timeline.map (·.nextBoundary) = some (.slotEnd b.slot)
  sent : ∀ b ∈ s.inTransit, sendsMark s .data = true
  finalUnderWay : ∀ t ∈ s.timeline, ∀ k : SlotNo, t.nextBoundary = .slotEnd k → sendsMark s .final = true →
    s.map[k].isMine = true → finalPending s.map[k] = true

/-- The laws of the slot map, the claim engine, the streams and the in-transit block. -/
structure EngineLegal (s : State) : Prop where
  work : WorkFits deferBound s.station s.work
  map : MapLegal s
  transit : TransitFits s

/-! ## The laws of the working part are the laws of the blocks -/

theorem State.probing_eq_zero_iff (s : State) (i : StreamNo) :
    s.probing i = 0 ↔ ∀ l : LaneNo, ∀ r ∈ s.lanes[l], r.stream ≠ i := by
  have hl (l : LaneNo) : s.laneCarries l i = false ↔ ∀ r ∈ s.lanes[l], r.stream ≠ i := by
    rw [← Bool.not_eq_true, s.laneCarries_iff l i]
    exact ⟨fun h r hr hi => h ⟨r, hr, hi⟩, fun h ⟨r, hr, hi⟩ => h r hr hi⟩
  unfold State.probing
  constructor
  · intro h l
    rw [← hl]
    have hn : (s.laneCarries 0 i || s.laneCarries 1 i) = false := by
      by_contra hc
      rw [Bool.not_eq_false] at hc
      rw [if_pos hc] at h
      cases h
    rw [Bool.or_eq_false_iff] at hn
    rcases LaneNo.eq_zero_or_one l with rfl | rfl
    · exact hn.1
    · exact hn.2
  · intro h
    rw [(hl 0).mpr (h 0), (hl 1).mpr (h 1)]
    rfl

theorem State.probing_le_one (s : State) (i : StreamNo) : s.probing i ≤ 1 := by
  unfold State.probing; split <;> decide

theorem State.inTransitOf_iff (s : State) (i : StreamNo) : s.inTransitOf i = true ↔ ∃ b ∈ s.inTransit, b.stream = i := by
  unfold State.inTransitOf
  cases s.inTransit <;> simp

theorem State.blocksOf_le {s : State} {i : StreamNo} :
    s.blocksOf i ≤ Config.txBlocks ↔ s.streams[i].queue.length ≤ Config.txBlocks ∧
      ∀ b ∈ s.inTransit, b.stream = i → s.streams[i].queue.length < Config.txBlocks := by
  unfold State.blocksOf
  by_cases h : s.inTransitOf i = true
  · obtain ⟨b, hb, hi⟩ := (s.inTransitOf_iff i).mp h
    rw [if_pos h]
    exact ⟨fun hl => ⟨Nat.le_of_succ_le hl, fun _ _ _ => hl⟩, fun hl => hl.2 b hb hi⟩
  · rw [if_neg h]
    exact ⟨fun hl => ⟨hl, fun b hb hi => absurd ((s.inTransitOf_iff i).mpr ⟨b, hb, hi⟩) h⟩, And.left⟩

theorem finalPending_mine (i : StreamNo) (c : Nat) (f : Bool) : finalPending (.mine i c f) = f := rfl

theorem StreamFits.of_legal {s : State} (h : Legal s) (i : StreamNo) :
    StreamFits Config.deferLimit s.station s.work i := by
  have L := h.streams.each i
  have laned (l : LaneNo) (r : Lane) (hr : r ∈ s.lanes[l]) (hi : r.stream = i) : s.probing i ≠ 0 := by
    intro hp
    exact (s.probing_eq_zero_iff i).mp hp l r hr hi
  obtain ⟨hq, ht⟩ := State.blocksOf_le.mp L.blocksRoom
  refine
    { record := ⟨L.wantedRange, L.heldOnce, (Nat.le_add_right _ _).trans L.heldRoom, L.liveHolds, L.idleHolds,
        L.closingHolds, L.attemptsRange, L.backoffRange, L.deferralRange, L.claimFieldsClear, L.failureHeld,
        L.leavingCloses, L.liveOnlyActive, L.closingOnlyOnTimeline, h.pool.emptyWhenClosed i, hq⟩
      heldMine := L.heldMine
      final := fun k c f hk => ?_
      laned := fun l r hr hi => ?_
      queued := fun hi => ⟨(h.claims.queuedClaims i hi).1, (L.queuedReady hi).1, (L.queuedReady hi).2⟩
      transit := fun b hb hi => ?_ }
  · have hh : k ∈ s.streams[i].held := (L.heldMine k).mpr ((MapEntry.isMineOf_iff _ _).mpr ⟨c, f, hk⟩)
    have hf := L.closingFinal k hh
    rw [show s.map[k] = .mine i c f from hk, finalPending_mine] at hf
    exact hf
  · obtain ⟨hc, -, hclean⟩ := h.claims.lanedClaims l r hr
    have hp := laned l r hr hi
    have hroom := L.heldRoom
    refine ⟨⟨hi ▸ hc, L.lanedReady hp, Nat.lt_of_lt_of_le ?_ hroom, hclean⟩, fun hq => ?_⟩
    · exact Nat.lt_add_of_pos_right (Nat.pos_of_ne_zero hp)
    · exact hp (h.claims.queuedClaims i hq).2
  · exact ⟨⟨ht b hb hi, fun hd => hi ▸ h.pool.transitReturns b hb hd⟩, hi ▸ h.pool.transitMine b hb⟩

theorem LaneLaws.of_legal {s : State} (h : ClaimsLegal s) : LaneLaws s.map s.lanes where
  lanesProbe l r hr := (h.lanedClaims l r hr).2.1
  probesLaned := h.probesLaned
  lanesDiffer l m hlm r hr q hq := by
    rcases LaneNo.eq_zero_or_one l with rfl | rfl <;> rcases LaneNo.eq_zero_or_one m with rfl | rfl
    · exact absurd rfl hlm
    · exact h.lanesDiffer r hr q hq
    · exact (h.lanesDiffer q hq r hr).symm
    · exact absurd rfl hlm

theorem EngineLegal.of_legal {s : State} (h : Legal s) : EngineLegal s where
  work :=
    { stream := .of_legal h
      lanes := .of_legal h.claims
      queueOnce := h.claims.queueOnce
      onlyActive := fun hne => by
        obtain ⟨hq, h0, h1⟩ := h.claims.onlyActive hne
        refine ⟨hq, fun l => ?_⟩
        rcases LaneNo.eq_zero_or_one l with rfl | rfl
        · exact h0
        · exact h1
      tagsDiffer := h.streams.tagsDiffer }
  map := h.map
  transit := ⟨h.pool.transitOnTimeline, h.pool.transitDue, h.pool.transitSent, h.streams.finalUnderWay⟩

namespace EngineLegal

variable {s : State} (h : EngineLegal s)
include h

theorem stream (i : StreamNo) : StreamFits Config.deferLimit s.station s.work i := h.work.stream i

theorem probing_cases (i : StreamNo) :
    s.probing i = 0 ∨ (s.probing i = 1 ∧ ∃ r, s.streams[i].Laned r ∧ i ∉ s.claimQueue) := by
  by_cases hp : s.probing i = 0
  · exact .inl hp
  · refine .inr ⟨?_, ?_⟩
    · have := s.probing_le_one i; omega
    · rw [s.probing_eq_zero_iff] at hp
      push Not at hp
      obtain ⟨l, r, hr, hi⟩ := hp
      exact ⟨r, (h.stream i).laned l r hr hi⟩

theorem streamLegal (i : StreamNo) : StreamLegal s i := by
  have S := h.stream i
  have R := S.record
  exact
    { heldOnce := R.heldOnce
      heldMine := S.heldMine
      heldRoom := by
        rcases h.probing_cases i with hp | ⟨hp, r, hr, -⟩ <;> rw [hp]
        · exact R.heldRoom
        · exact hr.room
      wantedRange := R.wantedRange
      liveHolds := R.liveHolds
      idleHolds := R.idleHolds
      closingHolds := R.closingHolds
      closingFinal := fun k hk => by
        obtain ⟨c, f, he⟩ := (MapEntry.isMineOf_iff _ _).mp ((S.heldMine k).mp hk)
        have hf := S.final k c f he
        rw [show s.map[k] = .mine i c f from he]
        exact hf
      blocksRoom := State.blocksOf_le.mpr ⟨R.queueRoom, fun b hb hi => (S.transit b hb hi).1.room⟩
      attemptsRange := R.attemptsRange
      backoffRange := R.backoffRange
      deferralRange := R.deferralRange
      claimFieldsClear := R.claimFieldsClear
      lanedReady := fun hp => by
        rcases h.probing_cases i with hz | ⟨-, r, hr, -⟩
        · exact absurd hz hp
        · exact hr.ready
      queuedReady := fun hq => ⟨(S.queued hq).ready, (S.queued hq).room⟩
      failureHeld := R.failureHeld
      leavingCloses := R.leavingCloses
      liveOnlyActive := R.liveOnlyActive
      closingOnlyOnTimeline := R.closingOnlyOnTimeline }

theorem claimsLegal : ClaimsLegal s where
  queueOnce := h.work.queueOnce
  queuedClaims i hi := by
    refine ⟨((h.stream i).queued hi).claiming, ?_⟩
    rcases h.probing_cases i with hz | ⟨-, r, -, hq⟩
    · exact hz
    · exact absurd hi hq
  lanedClaims l r hr :=
    have hl := ((h.stream r.stream).laned l r hr rfl).1
    ⟨hl.claiming, h.work.lanes.lanesProbe l r hr, hl.cleanRange⟩
  lanesDiffer := h.work.lanes.lanesDiffer 0 1 (by decide)
  probesLaned := h.work.lanes.probesLaned
  onlyActive hne := ⟨(h.work.onlyActive hne).1, (h.work.onlyActive hne).2 0, (h.work.onlyActive hne).2 1⟩

end EngineLegal

theorem length_of_once {bs : List BufferNo} (h : ∀ b : BufferNo, bs.count b = 1) : bs.length = Config.poolBuffers := by
  have hp : bs.Perm (List.finRange 192) := by
    refine List.perm_iff_count.mpr fun b => ?_
    rw [h b, List.count_eq_one_of_mem (List.nodup_finRange 192) (List.mem_finRange b)]
  rw [hp.length_eq, List.length_finRange]
  rfl

theorem poolLegal_of_parts {s : State} (h : EngineLegal s) (once : ∀ b : BufferNo, s.buffers.count b = 1) :
    PoolLegal s where
  once := once
  law := by
    have hl := length_of_once once
    have ht : s.txBuffers.length = s.txQueued := by
      simp [State.txBuffers, State.txQueued, Stream.buffers, List.length_flatMap]
    have hr : s.rxBuffers.length = s.rxQueued := by
      simp [State.rxBuffers, State.rxQueued, Subscription.buffers, List.length_flatMap]
    have hi : (s.inTransit.toList.map (·.block.buffer)).length = if s.inTransit.isSome then 1 else 0 := by
      cases s.inTransit <;> rfl
    rw [← hl, State.buffers, List.length_append, List.length_append, List.length_append, ht, hr, hi]
    rfl
  emptyWhenClosed i := (h.stream i).record.emptyWhenClosed
  lanesProbe := h.work.lanes.lanesProbe
  transitOnTimeline := h.transit.onTimeline
  transitMine b hb := ((h.stream b.stream).transit b hb rfl).2
  transitDue := h.transit.due
  transitSent := h.transit.sent
  transitReturns b hb := ((h.stream b.stream).transit b hb rfl).1.returns

/-- The laws of the blocks, put together. -/
theorem legal_of_parts {s : State} (station : StationLegal s) (store : StoreLegal s) (link : LinkLegal s)
    (engine : EngineLegal s) : Legal s where
  events := store.events
  station := station
  claims := engine.claimsLegal
  map := engine.map
  streams := ⟨engine.streamLegal, engine.work.tagsDiffer, engine.transit.finalUnderWay⟩
  subs := store.subs
  pool := poolLegal_of_parts engine store.once
  link := link

end Sys2Proof.Machine
end

section
/-! PROOF. What keeps the laws of the working part: a change of one stream and its place, of every record, of the
entries no stream owns, and of the lanes. -/

namespace Sys2Proof.Machine

open Sys2Proof.Safety

theorem getElem_set_fin {α : Type} {n : Nat} (v : Vector α n) (i j : Fin n) (a : α) :
    (v.set i a)[j] = if i = j then a else v[j] := by
  simp [Vector.getElem_set, Fin.ext_iff]

theorem entry_congr (map : Vector MapEntry 48) {k k' : SlotNo} (h : k = k') : map[k] = map[k'] := h ▸ rfl

/-! ## A stream whose place does not change -/

/-- From `w` to `w'` nothing of stream `j` and its place moves, but that it may leave the queue or a lane, and that its
block in transit may be condemned. -/
structure Untouched (w w' : Work) (j : StreamNo) : Prop where
  record : w'.streams[j] = w.streams[j]
  entries : ∀ k : SlotNo, w'.map[k] = w.map[k] ∨ (w'.map[k].isMineOf j = false ∧ w.map[k].isMineOf j = false)
  lanes : ∀ l : LaneNo, ∀ r ∈ w'.lanes[l], r.stream = j → ∃ q ∈ w.lanes[l], q.stream = j ∧
    (q.cleanCount < Config.probeCycles → r.cleanCount < Config.probeCycles)
  queue : j ∈ w'.claimQueue → j ∈ w.claimQueue
  transit : ∀ b ∈ w'.inTransit, b.stream = j → ∃ d ∈ w.inTransit, d.stream = j ∧ d.slot = b.slot ∧
    (b.disposal = .returnToQueue → d.disposal = .returnToQueue)

theorem StreamFits.frame {D : Nat} {st : StationState} {w w' : Work} {j : StreamNo} (h : StreamFits D st w j)
    (u : Untouched w w' j) : StreamFits D st w' j where
  record := u.record ▸ h.record
  heldMine k := by
    rw [u.record, h.heldMine]
    rcases u.entries k with he | ⟨h1, h2⟩
    · rw [he]
    · rw [h1, h2]
  final k c f hk := by
    rw [u.record]
    rcases u.entries k with he | ⟨h1, -⟩
    · exact h.final k c f (he.symm.trans hk)
    · rw [hk] at h1
      simp [MapEntry.isMineOf] at h1
  laned l r hr hj := by
    obtain ⟨q, hq, hqj, hc⟩ := u.lanes l r hr hj
    obtain ⟨hl, hn⟩ := h.laned l q hq hqj
    rw [u.record]
    exact ⟨⟨hl.claiming, hl.ready, hl.room, hc hl.cleanRange⟩, fun hm => hn (u.queue hm)⟩
  queued hj := u.record ▸ h.queued (u.queue hj)
  transit b hb hj := by
    obtain ⟨d, hd, hdj, hs, hr⟩ := u.transit b hb hj
    obtain ⟨hc, hm⟩ := h.transit d hd hdj
    rw [u.record]
    refine ⟨⟨hc.room, fun hb => hc.returns (hr hb)⟩, ?_⟩
    rw [← entry_congr w'.map hs]
    rcases u.entries d.slot with he | ⟨-, h2⟩
    · rw [he]; exact hm
    · exact absurd hm (Bool.eq_false_iff.mp h2)

theorem Stream.Fits.weaken {D D' : Nat} {st : StationState} {r : Stream} (h : r.Fits D st) (hd : D ≤ D') :
    r.Fits D' st := { h with deferralRange := Nat.lt_of_lt_of_le h.deferralRange hd }

theorem StreamFits.weaken {D D' : Nat} {st : StationState} {w : Work} {i : StreamNo} (h : StreamFits D st w i)
    (hd : D ≤ D') : StreamFits D' st w i := { h with record := h.record.weaken hd }

/-- The laws after a change of one stream and its place. -/
theorem WorkFits.one {D D' : StreamNo → Nat} {st : StationState} {w w' : Work} (h : WorkFits D st w) (i : StreamNo)
    (own : StreamFits (D' i) st w' i) (others : ∀ j, j ≠ i → Untouched w w' j ∧ D j ≤ D' j)
    (lanes : LaneLaws w'.map w'.lanes) (queueOnce : w'.claimQueue.Nodup)
    (onlyActive : st ≠ .active → w'.claimQueue = [] ∧ ∀ l : LaneNo, w'.lanes[l] = none)
    (tags : w'.streams[i].state ≠ .idle → ∀ j, j ≠ i → w.streams[j].state ≠ .idle →
      w'.streams[i].tag ≠ w.streams[j].tag) : WorkFits D' st w' where
  stream j := by
    by_cases hj : j = i
    · exact hj ▸ own
    · exact ((h.stream j).frame (others j hj).1).weaken (others j hj).2
  lanes := lanes
  queueOnce := queueOnce
  onlyActive := onlyActive
  tagsDiffer a b hab ha hb := by
    by_cases hai : a = i
    · subst hai
      rw [(others b hab.symm).1.record] at hb ⊢
      exact tags ha b hab.symm hb
    · by_cases hbi : b = i
      · subst hbi
        rw [(others a hai).1.record] at ha ⊢
        exact (tags hb a hai ha).symm
      · rw [(others a hai).1.record] at ha ⊢
        rw [(others b hbi).1.record] at hb ⊢
        exact h.tagsDiffer a b hab ha hb

/-- A stream that keeps its tag, and is in use only if it was, keeps the tags apart. -/
theorem WorkFits.same_tag {D : StreamNo → Nat} {st : StationState} {w : Work} (h : WorkFits D st w) {i : StreamNo}
    {r : Stream} (ht : r.tag = w.streams[i].tag) (hi : r.state ≠ .idle → w.streams[i].state ≠ .idle)
    (hr : r.state ≠ .idle) (j : StreamNo) (hj : j ≠ i) (hs : w.streams[j].state ≠ .idle) :
    r.tag ≠ w.streams[j].tag := ht ▸ h.tagsDiffer i j hj.symm (hi hr) hs

/-! ## The lanes -/

/-- Neither entry is PROBE. -/
def NoProbe (e e' : MapEntry) : Prop := ∀ (l : LaneNo) (i : StreamNo), e ≠ .probe l i ∧ e' ≠ .probe l i

namespace LaneLaws

variable {map : Vector MapEntry 48} {lanes : Vector (Option Lane) 2}

/-- Entries that are not PROBE may change under the same lanes. -/
theorem entries (h : LaneLaws map lanes) {map' : Vector MapEntry 48}
    (entries : ∀ k : SlotNo, map'[k] = map[k] ∨ NoProbe map[k] map'[k]) : LaneLaws map' lanes where
  lanesProbe l r hr := by
    have hp := h.lanesProbe l r hr
    rcases entries r.slot with he | hn
    · rw [he]; exact hp
    · exact absurd hp (hn l r.stream).1
  probesLaned k l i hk := by
    rcases entries k with he | hn
    · exact h.probesLaned k l i (he.symm.trans hk)
    · exact absurd hk (hn l i).2
  lanesDiffer := h.lanesDiffer

/-- No lane and no PROBE entry. -/
theorem empty (idle : ∀ l : LaneNo, lanes[l] = none)
    (noProbe : ∀ (k : SlotNo) (l : LaneNo) (i : StreamNo), map[k] ≠ .probe l i) : LaneLaws map lanes where
  lanesProbe l _ hr := nomatch (idle l).symm.trans hr
  probesLaned k l i hk := absurd hk (noProbe k l i)
  lanesDiffer l _ _ _ hr := nomatch (idle l).symm.trans hr

/-- A lane that gives up its slot to an entry that is not PROBE. -/
theorem release (h : LaneLaws map lanes) {l : LaneNo} {r : Lane} (hr : lanes[l] = some r) {e : MapEntry}
    (he : ∀ (m : LaneNo) (i : StreamNo), e ≠ .probe m i) :
    LaneLaws (map.set r.slot e) (lanes.set l none) where
  lanesProbe m q hq := by
    rw [getElem_set_fin] at hq ⊢
    split at hq
    · cases hq
    · rename_i hlm
      rw [if_neg]
      · exact h.lanesProbe m q hq
      · intro hs
        have hp := h.lanesProbe l r hr
        rw [entry_congr map hs, h.lanesProbe m q hq] at hp
        exact hlm (MapEntry.probe.inj hp).1.symm
  probesLaned k m i hk := by
    rw [getElem_set_fin] at hk
    split at hk
    · exact absurd hk (he m i)
    · rename_i hne
      obtain ⟨q, hq, hs, hi⟩ := h.probesLaned k m i hk
      refine ⟨q, ?_, hs, hi⟩
      rw [getElem_set_fin, if_neg]
      · exact hq
      · rintro rfl
        obtain rfl : r = q := Option.some.inj (hr.symm.trans hq)
        exact hne hs
  lanesDiffer a b hab p hp q hq := by
    rw [getElem_set_fin] at hp hq
    split at hp
    · cases hp
    · split at hq
      · cases hq
      · exact h.lanesDiffer a b hab p hp q hq

/-- A lane that goes on with its slot. -/
theorem count (h : LaneLaws map lanes) {l : LaneNo} {r r' : Lane} (hr : lanes[l] = some r)
    (hs : r'.slot = r.slot) (hi : r'.stream = r.stream) : LaneLaws map (lanes.set l (some r')) := by
  have back (m : LaneNo) (q : Lane) (hq : q ∈ (lanes.set l (some r'))[m]) :
      ∃ p ∈ lanes[m], p.slot = q.slot ∧ p.stream = q.stream := by
    rw [getElem_set_fin] at hq
    split at hq
    · rename_i hlm
      subst hlm
      cases hq
      exact ⟨r, hr, hs.symm, hi.symm⟩
    · exact ⟨q, hq, rfl, rfl⟩
  refine ⟨fun m q hq => ?_, fun k m i hk => ?_, fun a b hab p hp q hq => ?_⟩
  · obtain ⟨p, hp, hps, hpi⟩ := back m q hq
    rw [← hpi]
    exact (entry_congr map hps).symm.trans (h.lanesProbe m p hp)
  · obtain ⟨q, hq, hqs, hqi⟩ := h.probesLaned k m i hk
    rw [getElem_set_fin]
    split
    · rename_i hlm
      subst hlm
      obtain rfl : r = q := Option.some.inj (hr.symm.trans hq)
      exact ⟨r', rfl, hs.trans hqs, hi.trans hqi⟩
    · exact ⟨q, hq, hqs, hqi⟩
  · obtain ⟨p', hp', -, hpi⟩ := back a p hp
    obtain ⟨q', hq', -, hqi⟩ := back b q hq
    rw [← hpi, ← hqi]
    exact h.lanesDiffer a b hab p' hp' q' hq'

/-- An idle lane that takes a slot which is not PROBE, for a stream that no lane carries (R88). -/
theorem grant (h : LaneLaws map lanes) {l : LaneNo} (hl : lanes[l] = none) {k : SlotNo} {i : StreamNo}
    (hk : ∀ (m : LaneNo) (j : StreamNo), map[k] ≠ .probe m j) (hi : ∀ m : LaneNo, ∀ r ∈ lanes[m], r.stream ≠ i)
    (c : Nat) :
    LaneLaws (map.set k (.probe l i)) (lanes.set l (some { stream := i, slot := k, cleanCount := c })) where
  lanesProbe m q hq := by
    rw [getElem_set_fin] at hq ⊢
    split at hq
    · rename_i hlm
      cases hq
      rw [if_pos rfl, hlm]
    · have hp := h.lanesProbe m q hq
      rw [if_neg]
      · exact hp
      · rintro rfl; exact hk _ _ hp
  probesLaned k' m j hk' := by
    rw [getElem_set_fin] at hk'
    split at hk'
    · rename_i hkk
      cases hk'
      exact ⟨_, (getElem_set_fin ..).trans (if_pos rfl), hkk, rfl⟩
    · obtain ⟨q, hq, hs, hj⟩ := h.probesLaned k' m j hk'
      refine ⟨q, ?_, hs, hj⟩
      rw [getElem_set_fin, if_neg]
      · exact hq
      · rintro rfl; exact nomatch hl.symm.trans hq
  lanesDiffer a b hab p hp q hq := by
    rw [getElem_set_fin] at hp hq
    split at hp
    · rename_i hla
      cases hp
      rw [if_neg fun hlb => hab (hla.symm.trans hlb)] at hq
      exact (hi b q hq).symm
    · split at hq
      · cases hq
        exact hi a p hp
      · exact h.lanesDiffer a b hab p hp q hq

end LaneLaws

/-! ## Changes of the records alone -/

/-- Two records of one stream, with the same state, tag, slots and blocks. -/
structure Stream.Alike (r r' : Stream) : Prop where
  state : r'.state = r.state
  tag : r'.tag = r.tag
  wanted : r'.wanted = r.wanted
  held : r'.held = r.held
  queue : r'.queue = r.queue

/-- A record of which only claim fields and counts change keeps its place. -/
theorem StreamFits.alike {D D' : Nat} {st : StationState} {w : Work} {i : StreamNo} (h : StreamFits D st w i)
    {v : Vector Stream 8} (same : w.streams[i].Alike v[i]) (fits : v[i].Fits D' st)
    (laned : ∀ l : LaneNo, ∀ r ∈ w.lanes[l], r.stream = i → v[i].backoff = 0 ∧ v[i].deferral = 0)
    (queued : i ∈ w.claimQueue → v[i].backoff = 0) : StreamFits D' st { w with streams := v } i where
  record := fits
  heldMine k := by rw [same.held]; exact h.heldMine k
  final k c f hk := by rw [same.state]; exact h.final k c f hk
  laned l r hr hi := by
    obtain ⟨hl, hn⟩ := h.laned l r hr hi
    refine ⟨⟨same.state.trans hl.claiming, laned l r hr hi, ?_, hl.cleanRange⟩, hn⟩
    rw [same.held, same.wanted]
    exact hl.room
  queued hi := by
    obtain ⟨hc, -, hr⟩ := h.queued hi
    refine ⟨same.state.trans hc, queued hi, ?_⟩
    rw [same.held, same.wanted]
    exact hr
  transit b hb hi := by
    obtain ⟨⟨hroom, hret⟩, hm⟩ := h.transit b hb hi
    refine ⟨⟨?_, ?_⟩, hm⟩
    · rw [same.queue]; exact hroom
    · rw [same.state]; exact hret

theorem WorkFits.alike {D D' : StreamNo → Nat} {st : StationState} {w : Work} (h : WorkFits D st w)
    {v : Vector Stream 8} (same : ∀ i : StreamNo, w.streams[i].Alike v[i]) (fits : ∀ i : StreamNo, v[i].Fits (D' i) st)
    (laned : ∀ (i : StreamNo) (l : LaneNo), ∀ r ∈ w.lanes[l], r.stream = i → v[i].backoff = 0 ∧ v[i].deferral = 0)
    (queued : ∀ i ∈ w.claimQueue, v[i].backoff = 0) : WorkFits D' st { w with streams := v } where
  stream i := (h.stream i).alike (same i) (fits i) (laned i) (queued i)
  lanes := h.lanes
  queueOnce := h.queueOnce
  onlyActive := h.onlyActive
  tagsDiffer i j hij hi hj := by
    rw [(same i).state] at hi
    rw [(same j).state] at hj
    rw [(same i).tag, (same j).tag]
    exact h.tagsDiffer i j hij hi hj

/-- One record of which only claim fields and counts change. -/
theorem WorkFits.alikeOne {D D' : StreamNo → Nat} {st : StationState} {w : Work} (h : WorkFits D st w) {i : StreamNo}
    {r : Stream} (same : w.streams[i].Alike r) (fits : r.Fits (D' i) st) (bounds : ∀ j, j ≠ i → D j ≤ D' j)
    (backoff : r.backoff = w.streams[i].backoff ∨ ¬ w.streams[i].Queued ∧ ∀ l, ¬ w.streams[i].Laned l)
    (deferral : r.deferral = w.streams[i].deferral ∨ r.deferral = 0) :
    WorkFits D' st { w with streams := w.streams.set i r } := by
  have get (j : StreamNo) : (w.streams.set i r)[j] = if i = j then r else w.streams[j] := getElem_set_fin ..
  refine h.alike (fun j => ?_) (fun j => ?_) (fun j l q hq hj => ?_) fun j hj => ?_
  · rw [get]
    split
    · rename_i hij; subst hij; exact same
    · exact ⟨rfl, rfl, rfl, rfl, rfl⟩
  · rw [get]
    split
    · rename_i hij; subst hij; exact fits
    · exact (h.stream j).record.weaken (bounds j (Ne.symm ‹_›))
  · have hl := ((h.stream j).laned l q hq hj).1
    rw [get]
    split
    · rename_i hij
      subst hij
      refine ⟨?_, ?_⟩
      · rcases backoff with hb | hb
        · rw [hb]; exact hl.ready.1
        · exact absurd hl (hb.2 q)
      · rcases deferral with hd | hd
        · rw [hd]; exact hl.ready.2
        · exact hd
    · exact hl.ready
  · have hq := (h.stream j).queued hj
    rw [get]
    split
    · rename_i hij
      subst hij
      rcases backoff with hb | hb
      · rw [hb]; exact hq.ready
      · exact absurd hq hb.1
    · exact hq.ready

/-! ## A working part in which no stream holds a slot -/

theorem WorkFits.bare {st : StationState} {w : Work} (records : ∀ i : StreamNo, w.streams[i].Fits Config.deferLimit st)
    (held : ∀ i : StreamNo, w.streams[i].held = []) (map : ∀ k : SlotNo, w.map[k].owned = false)
    (queue : w.claimQueue = []) (lanes : ∀ l : LaneNo, w.lanes[l] = none) (transit : w.inTransit = none)
    (tags : ∀ i j : StreamNo, i ≠ j → w.streams[i].state ≠ .idle → w.streams[j].state ≠ .idle →
      w.streams[i].tag ≠ w.streams[j].tag) : WorkFits deferBound st w where
  stream i :=
    { record := records i
      heldMine := fun k => by
        rw [held i]
        have hk := map k
        cases he : w.map[k] <;> simp_all [MapEntry.owned, MapEntry.isMineOf]
      final := fun k c f hk => by
        have ho := map k
        rw [hk] at ho
        cases ho
      laned := fun l r hr => nomatch (lanes l).symm.trans hr
      queued := fun hq => by rw [queue] at hq; cases hq
      transit := fun b hb => nomatch transit.symm.trans hb }
  lanes := .empty lanes fun k l i hk => by
    have ho := map k
    rw [hk] at ho
    cases ho
  queueOnce := queue ▸ List.nodup_nil
  onlyActive _ := ⟨queue, lanes⟩
  tagsDiffer := tags

end Sys2Proof.Machine
end

section
/-! PROOF. The claim engine and the stream unit keep the laws of the working part. -/

namespace Sys2Proof.Machine

open Sys2Proof.Safety

/-! ## Probes that end (R93 to R95) -/

section Lanes

variable {D : StreamNo → Nat} {st : StationState} {w : Work}

theorem MapEntry.not_mine_of_not_owned {e : MapEntry} (h : e.owned = false) (i : StreamNo) : e.isMineOf i = false := by
  cases e <;> simp_all [MapEntry.owned, MapEntry.isMineOf]

theorem MapEntry.not_probe_of_not_owned {e : MapEntry} (h : e.owned = false) (l : LaneNo) (i : StreamNo) :
    e ≠ .probe l i := by
  rintro rfl
  cases h

theorem isMineOf_mine (i j : StreamNo) (c : Nat) (f : Bool) : (MapEntry.mine i c f).isMineOf j = (i == j) := rfl

/-- The entry that a probe leaves when it ends, with the held list that goes with it: a slot won, or none. -/
def EndsProbe (q q' : Stream) (i : StreamNo) (k : SlotNo) (e : MapEntry) : Prop :=
  (e = .mine i 0 false ∧ q'.held = q.held ++ [k]) ∨ (e.owned = false ∧ q'.held = q.held)

/-- A probe ends: its lane is idle, and its slot is won or left (R93, R94). -/
theorem WorkFits.endProbe (h : WorkFits D st w) {l : LaneNo} {r : Lane} (hr : w.lanes[l] = some r) {e : MapEntry}
    {q : Stream} (ends : EndsProbe w.streams[r.stream] q r.stream r.slot e) (fits : q.Fits (D r.stream) st)
    (tag : q.tag = w.streams[r.stream].tag) (queue : q.queue = w.streams[r.stream].queue) (closing : q.state ≠ .closing)
    (idle : q.state ≠ .idle) :
    WorkFits D st { w with
      lanes := w.lanes.set l none, map := w.map.set r.slot e, streams := w.streams.set r.stream q } := by
  have own := h.stream r.stream
  have probe := h.lanes.lanesProbe l r hr
  obtain ⟨hl, hn⟩ := own.laned l r hr rfl
  have not_mine (j : StreamNo) : w.map[r.slot].isMineOf j = false := by rw [probe]; rfl
  have entry (k : SlotNo) : (w.map.set r.slot e)[k] = if r.slot = k then e else w.map[k] := getElem_set_fin ..
  have get (j : StreamNo) : (w.streams.set r.stream q)[j] = if r.stream = j then q else w.streams[j] :=
    getElem_set_fin ..
  have lane (m : LaneNo) : (w.lanes.set l none)[m] = if l = m then none else w.lanes[m] := getElem_set_fin ..
  refine h.one r.stream ?_ (fun j hj => ⟨?_, le_rfl⟩) (h.lanes.release hr ?_) h.queueOnce ?_ fun _ j hj hs => ?_
  · have hq : (w.streams.set r.stream q)[r.stream] = q := (get _).trans (if_pos rfl)
    refine ⟨?_, fun k => ?_, fun k c f hk => ?_, fun m p hp hi => ?_, fun hi => absurd hi hn, fun b hb hi => ?_⟩
    · rw [hq]; exact fits
    · rw [hq, entry]
      rcases ends with ⟨rfl, hh⟩ | ⟨he, hh⟩ <;> rw [hh]
      · split
        · rename_i hk
          simp [hk, isMineOf_mine]
        · rename_i hk
          rw [List.mem_append, List.mem_singleton, or_iff_left (Ne.symm hk)]
          exact own.heldMine k
      · split
        · rename_i hk
          rw [own.heldMine, ← entry_congr w.map hk, not_mine, MapEntry.not_mine_of_not_owned he]
        · exact own.heldMine k
    · rw [hq, beq_eq_false_iff_ne.mpr closing]
      rw [entry] at hk
      split at hk
      · rcases ends with ⟨rfl, -⟩ | ⟨he, -⟩
        · cases hk; rfl
        · rw [hk] at he; cases he
      · rw [own.final k c f hk, hl.claiming]
        rfl
    · rw [lane] at hp
      split at hp
      · cases hp
      · exact absurd hi.symm (h.lanes.lanesDiffer l m ‹_› r hr p hp)
    · obtain ⟨hc, hm⟩ := own.transit b hb hi
      rw [hq, entry, if_neg]
      · exact ⟨⟨queue ▸ hc.room, fun _ => ⟨idle, closing⟩⟩, hm⟩
      · intro hs
        rw [← entry_congr w.map hs, not_mine] at hm
        cases hm
  · refine ⟨(get j).trans (if_neg (Ne.symm hj)), fun k => ?_, fun m p hp hi => ?_, id, fun b hb hi => ?_⟩
    · rw [entry]
      split
      · rename_i hk
        refine .inr ⟨?_, entry_congr w.map hk ▸ not_mine j⟩
        rcases ends with ⟨rfl, -⟩ | ⟨he, -⟩
        · exact beq_eq_false_iff_ne.mpr (Ne.symm hj)
        · exact MapEntry.not_mine_of_not_owned he j
      · exact .inl rfl
    · rw [lane] at hp
      split at hp
      · cases hp
      · exact ⟨p, hp, hi, id⟩
    · exact ⟨b, hb, hi, rfl, id⟩
  · rcases ends with ⟨rfl, -⟩ | ⟨he, -⟩
    · exact nofun
    · exact MapEntry.not_probe_of_not_owned he
  · exact fun hne => nomatch ((h.onlyActive hne).2 l).symm.trans hr
  · have hq : (w.streams.set r.stream q)[r.stream] = q := (get _).trans (if_pos rfl)
    rw [hq] at *
    exact h.same_tag tag (fun _ => by rw [hl.claiming]; exact nofun) idle j hj hs

/-- A lane that counts a clean CLAIM (R92). -/
theorem WorkFits.countLane (h : WorkFits D st w) {l : LaneNo} {r r' : Lane} (hr : w.lanes[l] = some r)
    (stream : r'.stream = r.stream) (slot : r'.slot = r.slot) (clean : r'.cleanCount < Config.probeCycles) :
    WorkFits D st { w with lanes := w.lanes.set l (some r') } where
  stream i :=
    { h.stream i with
      laned := fun m q hq hi => by
        rw [getElem_set_fin] at hq
        split at hq
        · cases hq
          obtain ⟨hl, hn⟩ := (h.stream i).laned l r hr (stream.symm.trans hi)
          exact ⟨⟨hl.claiming, hl.ready, hl.room, clean⟩, hn⟩
        · exact (h.stream i).laned m q hq hi }
  lanes := h.lanes.count hr slot stream
  queueOnce := h.queueOnce
  onlyActive hne := nomatch ((h.onlyActive hne).2 l).symm.trans hr
  tagsDiffer := h.tagsDiffer

/-! ## Slots of a stream (R112 to R118) -/

/-- The conflicts of a MINE entry change (R112, R114). -/
theorem WorkFits.markEntry (h : WorkFits D st w) {k : SlotNo} {i : StreamNo} {c c' : Nat} {f : Bool}
    (hk : w.map[k] = .mine i c f) : WorkFits D st { w with map := w.map.set k (.mine i c' f) } := by
  have entry (m : SlotNo) : (w.map.set k (.mine i c' f))[m] = if k = m then .mine i c' f else w.map[m] :=
    getElem_set_fin ..
  have mine (m : SlotNo) (j : StreamNo) : (w.map.set k (.mine i c' f))[m].isMineOf j = w.map[m].isMineOf j := by
    rw [entry]
    split
    · rename_i hm; rw [← entry_congr w.map hm, hk]; rfl
    · rfl
  refine ⟨fun j => ?_, ?_, h.queueOnce, h.onlyActive, h.tagsDiffer⟩
  · refine { h.stream j with heldMine := fun m => ?_, final := fun m d g hm => ?_, transit := fun b hb hj => ?_ }
    · rw [mine]; exact (h.stream j).heldMine m
    · rw [entry] at hm
      split at hm
      · cases hm; exact (h.stream i).final k c f hk
      · exact (h.stream j).final m d g hm
    · rw [mine]; exact (h.stream j).transit b hb hj
  · refine h.lanes.entries fun m => ?_
    rw [entry]
    split
    · rename_i hm; exact .inr fun l j => by rw [← entry_congr w.map hm, hk]; exact ⟨nofun, nofun⟩
    · exact .inl rfl

/-- A stream gives up a slot (R115, R118). -/
theorem WorkFits.giveUp (h : WorkFits D st w) (transit : w.inTransit = none) {k : SlotNo} {i : StreamNo} {c : Nat}
    {f : Bool} (hk : w.map[k] = .mine i c f) {e : MapEntry} (he : e.owned = false) {q : Stream}
    (held : q.held = w.streams[i].held.erase k) (fits : q.Fits (D i) st)
    (claiming : w.streams[i].state = .claiming → q.state = .claiming)
    (closing : q.held ≠ [] → (q.state == .closing) = (w.streams[i].state == .closing))
    (idle : q.state ≠ .idle → w.streams[i].state ≠ .idle)
    (same : q.tag = w.streams[i].tag ∧ q.wanted = w.streams[i].wanted ∧ q.backoff = w.streams[i].backoff ∧
      q.deferral = w.streams[i].deferral) :
    WorkFits D st { w with map := w.map.set k e, streams := w.streams.set i q } := by
  obtain ⟨tag, wanted, backoff, deferral⟩ := same
  have own := h.stream i
  have entry (m : SlotNo) : (w.map.set k e)[m] = if k = m then e else w.map[m] := getElem_set_fin ..
  have get (j : StreamNo) : (w.streams.set i q)[j] = if i = j then q else w.streams[j] := getElem_set_fin ..
  have hq : (w.streams.set i q)[i] = q := (get _).trans (if_pos rfl)
  have shorter : q.held.length ≤ w.streams[i].held.length := held ▸ List.length_erase_le
  refine h.one i ?_ (fun j hj => ⟨?_, le_rfl⟩) (h.lanes.entries fun m => ?_) h.queueOnce h.onlyActive ?_
  · refine ⟨?_, fun m => ?_, fun m d g hm => ?_, fun l r hr hi => ?_, fun hi => ?_,
      fun b hb => nomatch transit.symm.trans hb⟩
    · rw [hq]; exact fits
    · rw [hq, held, own.record.heldOnce.mem_erase_iff, entry]
      split
      · rename_i hm
        exact iff_of_false (fun hn => hn.1 hm.symm) (Bool.eq_false_iff.mp (MapEntry.not_mine_of_not_owned he i))
      · rename_i hm
        rw [and_iff_right (Ne.symm hm)]
        exact own.heldMine m
    · rw [entry] at hm
      split at hm
      · rw [hm] at he; cases he
      · rename_i hne
        have hmem : m ∈ q.held := by
          rw [held, own.record.heldOnce.mem_erase_iff]
          exact ⟨Ne.symm hne, (own.heldMine m).mpr ((MapEntry.isMineOf_iff _ _).mpr ⟨d, g, hm⟩)⟩
        rw [hq, closing (List.ne_nil_of_mem hmem)]
        exact own.final m d g hm
    · obtain ⟨⟨hc, hready, hroom, hclean⟩, hn⟩ := own.laned l r hr hi
      rw [hq]
      refine ⟨⟨claiming hc, ?_, ?_, hclean⟩, hn⟩
      · rw [backoff, deferral]; exact hready
      · rw [wanted]; exact Nat.lt_of_le_of_lt shorter hroom
    · obtain ⟨hc, hready, hroom⟩ := own.queued hi
      rw [hq]
      refine ⟨claiming hc, backoff.trans hready, ?_⟩
      rw [wanted]
      exact Nat.lt_of_le_of_lt shorter hroom
  · refine ⟨(get j).trans (if_neg (Ne.symm hj)), fun m => ?_, fun l p hp hi => ⟨p, hp, hi, id⟩, id,
      fun b hb hi => ⟨b, hb, hi, rfl, id⟩⟩
    rw [entry]
    split
    · rename_i hm
      refine .inr ⟨MapEntry.not_mine_of_not_owned he j, ?_⟩
      rw [← entry_congr w.map hm, hk]
      exact beq_eq_false_iff_ne.mpr (Ne.symm hj)
    · exact .inl rfl
  · rw [entry]
    split
    · rename_i hm
      exact .inr fun l j => ⟨by rw [← entry_congr w.map hm, hk]; exact nofun, MapEntry.not_probe_of_not_owned he l j⟩
    · exact .inl rfl
  · intro hs j hj hsj
    rw [hq] at hs ⊢
    exact h.same_tag tag idle hs j hj hsj

/-! ## Blocks of a stream (R106, R108, R113) -/

/-- The queue of a stream and the in-transit block change. -/
theorem WorkFits.requeue (h : WorkFits D st w) (i : StreamNo) {blocks : List Block} {transit : Option InTransit}
    (empty : w.streams[i].state = .idle ∨ w.streams[i].state = .closing → blocks = [])
    (room : blocks.length ≤ Config.txBlocks)
    (carried : ∀ b ∈ transit, (b.stream ≠ i ∧ b ∈ w.inTransit) ∨
      (b.stream = i ∧ w.map[b.slot].isMineOf i = true ∧ blocks.length < Config.txBlocks ∧
        (b.disposal = .returnToQueue → w.streams[i].state ≠ .idle ∧ w.streams[i].state ≠ .closing)))
    (free : List BufferNo) :
    WorkFits D st { w with
      streams := w.streams.set i { w.streams[i] with queue := blocks }, inTransit := transit, freeList := free } := by
  have own := h.stream i
  have get (j : StreamNo) : (w.streams.set i { w.streams[i] with queue := blocks })[j] =
      if i = j then { w.streams[i] with queue := blocks } else w.streams[j] := getElem_set_fin ..
  have hq := (get i).trans (if_pos rfl)
  refine h.one i ?_ (fun j hj => ⟨?_, le_rfl⟩) h.lanes h.queueOnce h.onlyActive ?_
  · refine ⟨?_, ?_, ?_, fun l r hr hi => ?_, fun hi => ?_, fun b hb hi => ?_⟩
    · rw [hq]; exact { own.record with emptyWhenClosed := empty, queueRoom := room }
    · rw [hq]; exact own.heldMine
    · rw [hq]; exact own.final
    · obtain ⟨⟨hc, hready, hroom, hclean⟩, hn⟩ := own.laned l r hr hi
      rw [hq]
      exact ⟨⟨hc, hready, hroom, hclean⟩, hn⟩
    · obtain ⟨hc, hready, hroom⟩ := own.queued hi
      rw [hq]
      exact ⟨hc, hready, hroom⟩
    · rcases carried b hb with ⟨hne, -⟩ | ⟨-, hm, hroom, hret⟩
      · exact absurd hi hne
      · rw [hq]; exact ⟨⟨hroom, hret⟩, hm⟩
  · refine ⟨(get j).trans (if_neg (Ne.symm hj)), fun _ => .inl rfl, fun l p hp hi => ⟨p, hp, hi, id⟩, id,
      fun b hb hi => ?_⟩
    rcases carried b hb with ⟨-, hw⟩ | ⟨hbi, -⟩
    · exact ⟨b, hw, hi, rfl, id⟩
    · exact absurd (hi.symm.trans hbi) hj
  · intro hs j hj hsj
    rw [hq] at hs ⊢
    exact h.same_tag (r := { w.streams[i] with queue := blocks }) rfl id hs j hj hsj

/-- The in-transit block leaves, and the free list changes. -/
theorem WorkFits.noTransit (h : WorkFits D st w) (free : List BufferNo) :
    WorkFits D st { w with inTransit := none, freeList := free } :=
  ⟨fun i => { h.stream i with transit := nofun }, h.lanes, h.queueOnce, h.onlyActive, h.tagsDiffer⟩

/-- The events and the free list are no part of these laws. -/
theorem WorkFits.congr (h : WorkFits D st w) {v : Work} (map : v.map = w.map) (claimQueue : v.claimQueue = w.claimQueue)
    (lanes : v.lanes = w.lanes) (streams : v.streams = w.streams) (inTransit : v.inTransit = w.inTransit) :
    WorkFits D st v := by
  cases v
  cases w
  cases map; cases claimQueue; cases lanes; cases streams; cases inTransit
  exact ⟨fun i => { h.stream i with }, h.lanes, h.queueOnce, h.onlyActive, h.tagsDiffer⟩

end Lanes

theorem WorkFits.weaken {D D' : StreamNo → Nat} {st : StationState} {w : Work} (h : WorkFits D st w)
    (hd : ∀ i, D i ≤ D' i) : WorkFits D' st w := { h with stream := fun i => (h.stream i).weaken (hd i) }

/-! ## The slot-phase start (R85 to R90) -/

theorem State.countBackoffs_fits {s : State} {st : StationState} (h : WorkFits deferBound st s.work) :
    WorkFits deferBound st s.countBackoffs.work := by
  have get (i : StreamNo) : s.countBackoffs.streams[i] =
      if s.streams[i].state = .claiming then { s.streams[i] with backoff := s.streams[i].backoff - 1 }
      else s.streams[i] := s.mapStreams_get _ i
  refine h.alike (v := s.countBackoffs.streams) (fun i => ?_) (fun i => ?_) (fun i l r hr hi => ?_) fun i hi => ?_
  · rw [get]; split <;> exact ⟨rfl, rfl, rfl, rfl, rfl⟩
  · have hr := (h.stream i).record
    rw [get]
    split
    · rename_i hc
      exact { hr with
        backoffRange := Nat.lt_of_le_of_lt (Nat.sub_le _ _) hr.backoffRange
        claimFieldsClear := fun hn => absurd hc hn }
    · exact hr
  · have hl := ((h.stream i).laned l r hr hi).1.ready
    rw [get]
    split
    · exact ⟨Nat.sub_eq_zero_of_le (hl.1.trans_le (Nat.zero_le _)), hl.2⟩
    · exact hl
  · have hq := ((h.stream i).queued hi).ready
    rw [get]
    split
    · exact Nat.sub_eq_zero_of_le (hq.trans_le (Nat.zero_le _))
    · exact hq

theorem State.mayJoin_iff (s : State) (i : StreamNo) :
    s.mayJoin i = true ↔ s.streams[i].Queued ∧ i ∉ s.claimQueue ∧ s.probing i = 0 := by
  unfold State.mayJoin
  simp only [Bool.and_eq_true, beq_iff_eq, decide_eq_true_eq, Bool.not_eq_true', List.contains_eq_mem,
    decide_eq_false_iff_not]
  constructor
  · rintro ⟨⟨⟨⟨hc, hb⟩, hq⟩, hp⟩, hr⟩
    exact ⟨⟨hc, hb, (Nat.le_add_right _ _).trans_lt hr⟩, hq, hp⟩
  · rintro ⟨⟨hc, hb, hr⟩, hq, hp⟩
    exact ⟨⟨⟨⟨hc, hb⟩, hq⟩, hp⟩, by rw [hp]; exact hr⟩

theorem State.joinQueue_fits {s : State} (h : WorkFits deferBound .active s.work) :
    WorkFits deferBound .active s.joinQueue.work := by
  have mem (i : StreamNo) : i ∈ s.joinQueue.claimQueue ↔ i ∈ s.claimQueue ∨ s.mayJoin i = true := by
    simp [State.joinQueue, mem_allStreams]
  refine ⟨fun i => ?_, h.lanes, ?_, fun hne => absurd rfl hne, h.tagsDiffer⟩
  · refine { h.stream i with laned := fun l r hr hi => ?_, queued := fun hq => ?_ }
    · obtain ⟨hl, hn⟩ := (h.stream i).laned l r hr hi
      refine ⟨hl, fun hq => ?_⟩
      rcases (mem i).mp hq with hq | hj
      · exact hn hq
      · exact (s.probing_eq_zero_iff i).mp ((s.mayJoin_iff i).mp hj).2.2 l r hr hi
    · rcases (mem i).mp hq with hq | hj
      · exact (h.stream i).queued hq
      · exact ((s.mayJoin_iff i).mp hj).1
  · refine h.queueOnce.append ((List.nodup_finRange 8).filter _) fun i hi hj => ?_
    exact ((s.mayJoin_iff i).mp (List.mem_filter.mp hj).2).2.1 hi

/-- A stream of the queue's head takes a lane and a FREE slot (R88). -/
theorem State.grant_fits {s : State} (h : WorkFits deferBound .active s.work) {l : LaneNo} {i : StreamNo}
    {rest : List StreamNo} {k : SlotNo} (hl : s.lanes[l] = none) (hq : s.claimQueue = i :: rest)
    (hk : s.map[k] = .free) : WorkFits deferBound .active (s.grant l i k).work := by
  have own := h.stream i
  have queued := own.queued (show i ∈ s.claimQueue from hq ▸ List.mem_cons_self)
  have once : i ∉ rest ∧ rest.Nodup := List.nodup_cons.mp (hq ▸ h.queueOnce)
  have idle (m : LaneNo) (r : Lane) (hr : r ∈ s.lanes[m]) : r.stream ≠ i := fun hi =>
    (own.laned m r hr hi).2 (show i ∈ s.claimQueue from hq ▸ List.mem_cons_self)
  have get (j : StreamNo) : (s.grant l i k).streams[j] =
      if i = j then { s.streams[i] with deferral := 0 } else s.streams[j] := State.modStream_get _ i j _
  have entry (m : SlotNo) : (s.grant l i k).map[m] = if k = m then .probe l i else s.map[m] := getElem_set_fin ..
  have lane (m : LaneNo) : (s.grant l i k).lanes[m] =
      if l = m then some { stream := i, slot := k, cleanCount := 0 } else s.lanes[m] := getElem_set_fin ..
  have hqi := (get i).trans (if_pos rfl)
  have queue : (s.grant l i k).claimQueue = rest := congrArg List.tail hq
  have mine (m : SlotNo) (j : StreamNo) : (s.grant l i k).map[m].isMineOf j = s.map[m].isMineOf j := by
    rw [entry]
    split
    · rename_i hm; rw [← entry_congr s.map hm, hk]; rfl
    · rfl
  refine h.one i ?_ (fun j hj => ⟨?_, le_rfl⟩) ?_ ?_ (fun hne => absurd rfl hne) ?_
  · refine ⟨?_, fun m => ?_, fun m c f hm => ?_, fun m r hr hi => ?_, fun hi => absurd (queue ▸ hi) once.1,
      fun b hb hi => ?_⟩
    · change (s.grant l i k).streams[i].Fits _ _
      rw [hqi]
      exact { own.record with
        deferralRange := Nat.zero_lt_succ _, claimFieldsClear := fun hn => absurd queued.claiming hn }
    · change m ∈ (s.grant l i k).streams[i].held ↔ (s.grant l i k).map[m].isMineOf i = true
      rw [hqi, mine]; exact own.heldMine m
    · change f = ((s.grant l i k).streams[i].state == .closing)
      change (s.grant l i k).map[m] = .mine i c f at hm
      rw [entry] at hm
      rw [hqi]
      split at hm
      · cases hm
      · exact own.final m c f hm
    · change r ∈ (s.grant l i k).lanes[m] at hr
      change (s.grant l i k).streams[i].Laned r ∧ i ∉ (s.grant l i k).claimQueue
      rw [lane] at hr
      rw [hqi, queue]
      split at hr
      · cases hr
        exact ⟨⟨queued.claiming, ⟨queued.ready, rfl⟩, queued.room, Nat.zero_lt_succ _⟩, once.1⟩
      · exact absurd hi (idle m r hr)
    · change (s.grant l i k).streams[i].Carries b ∧ (s.grant l i k).map[b.slot].isMineOf i = true
      rw [hqi, mine]
      obtain ⟨⟨hroom, hret⟩, hm⟩ := own.transit b hb hi
      exact ⟨⟨hroom, hret⟩, hm⟩
  · refine ⟨(get j).trans (if_neg (Ne.symm hj)), fun m => ?_, fun m r hr hi => ?_, fun hq' => ?_,
      fun b hb hi => ⟨b, hb, hi, rfl, id⟩⟩
    · change (s.grant l i k).map[m] = s.map[m] ∨ _
      rw [entry]
      split
      · rename_i hm
        exact .inr ⟨(mine m j).trans (by rw [← entry_congr s.map hm, hk]; rfl), by
          change s.map[m].isMineOf j = false
          rw [← entry_congr s.map hm, hk]; rfl⟩
      · exact .inl rfl
    · change r ∈ (s.grant l i k).lanes[m] at hr
      rw [lane] at hr
      split at hr
      · cases hr; exact absurd hi.symm hj
      · exact ⟨r, hr, hi, id⟩
    · change j ∈ (s.grant l i k).claimQueue at hq'
      rw [queue] at hq'
      exact (hq ▸ List.mem_cons_of_mem i hq' : j ∈ s.claimQueue)
  · exact h.lanes.grant hl (fun m j => by change s.map[k] ≠ _; rw [hk]; exact nofun) idle 0
  · change (s.grant l i k).claimQueue.Nodup
    rw [queue]; exact once.2
  · intro hs j hj hsj
    change (s.grant l i k).streams[i].tag ≠ _
    rw [hqi]
    exact h.same_tag (r := { s.streams[i] with deferral := 0 }) rfl id
      (fun hn => nomatch queued.claiming.symm.trans hn) j hj hsj

theorem State.serveLane_fits {s : State} (h : WorkFits deferBound .active s.work) (l : LaneNo) :
    WorkFits deferBound .active (s.serveLane l).work := by
  unfold State.serveLane
  split
  · rename_i i rest hl hq
    split
    · rename_i k hk
      have hfree : s.map[k] = .free := by
        have hm := (List.mem_filter.mp (List.mem_of_getElem? hk)).2
        exact beq_iff_eq.mp hm
      exact State.grant_fits (s := s.drawUsed) h hl hq hfree
    · exact h
  all_goals exact h

/-- The bound on the deferrals while the streams of this list are still to be judged (R89, R90). -/
def judging (es : List StreamNo) : StreamNo → Nat :=
  fun i => if i ∈ es then Config.deferLimit + 1 else Config.deferLimit

theorem le_judging (es : List StreamNo) (i : StreamNo) : Config.deferLimit ≤ judging es i := by
  unfold judging; split
  · exact Nat.le_succ _
  · exact le_rfl

theorem State.countDeferrals_fits {s : State} (h : WorkFits deferBound .active s.work) :
    WorkFits (judging s.claimQueue) .active s.countDeferrals.work := by
  have get (i : StreamNo) : s.countDeferrals.streams[i] =
      if s.claimQueue.contains i then { s.streams[i] with deferral := s.streams[i].deferral + 1 } else s.streams[i] :=
    s.mapStreams_get _ i
  refine h.alike (v := s.countDeferrals.streams) (fun i => ?_) (fun i => ?_) (fun i l r hr hi => ?_) fun i hi => ?_
  · rw [get]; split <;> exact ⟨rfl, rfl, rfl, rfl, rfl⟩
  · have hr := (h.stream i).record
    rw [get]
    split
    · rename_i hc
      have hi : i ∈ s.claimQueue := by simpa using hc
      have hq := (h.stream i).queued hi
      exact { hr with
        deferralRange := by
          unfold judging
          rw [if_pos hi]
          exact Nat.succ_lt_succ hr.deferralRange
        claimFieldsClear := fun hn => absurd hq.claiming hn }
    · exact hr.weaken (le_judging _ i)
  · obtain ⟨hl, hn⟩ := (h.stream i).laned l r hr hi
    rw [get, if_neg]
    · exact hl.ready
    · have hq : i ∉ s.claimQueue := hn
      simpa using hq
  · have hq := ((h.stream i).queued hi).ready
    rw [get]
    split
    · exact hq
    · exact hq

/-- The record of a stream that fails (R90, R95). -/
def Stream.failed (r : Stream) (why : Reason) : Stream := { r.clearClaim with state := .failed, failure := some why }

theorem Stream.Fits.failed {D D' : Nat} {st : StationState} {r : Stream} (h : r.Fits D st) (held : r.held = [])
    (hl : st ≠ .leaving) (hD : 0 < D') (why : Reason) : (r.failed why).Fits D' st :=
  { h with
    liveHolds := nofun
    idleHolds := fun _ => held
    closingHolds := nofun
    attemptsRange := Nat.zero_lt_succ _
    backoffRange := Nat.zero_lt_succ _
    deferralRange := hD
    claimFieldsClear := fun _ => ⟨rfl, rfl, rfl, rfl⟩
    failureHeld := iff_of_true rfl rfl
    leavingCloses := fun hs => absurd hs hl
    liveOnlyActive := nofun
    closingOnlyOnTimeline := nofun
    emptyWhenClosed := fun hs => hs.elim nofun nofun }

/-- A queued stream that fails leaves the queue (R90). -/
theorem WorkFits.failQueued {D D' : StreamNo → Nat} {w : Work} (h : WorkFits D .active w) {i : StreamNo}
    (hi : w.streams[i].state = .claiming) (lane : ∀ l : LaneNo, ∀ r ∈ w.lanes[l], r.stream ≠ i)
    (held : w.streams[i].held = []) (bound : 0 < D' i) (bounds : ∀ j, j ≠ i → D j ≤ D' j) (why : Reason) :
    WorkFits D' .active { w with
      claimQueue := w.claimQueue.filter (· ≠ i), streams := w.streams.set i (w.streams[i].failed why) } := by
  have own := h.stream i
  have get (j : StreamNo) : (w.streams.set i (w.streams[i].failed why))[j] =
      if i = j then w.streams[i].failed why else w.streams[j] := getElem_set_fin ..
  have hq := (get i).trans (if_pos rfl)
  have noMine (k : SlotNo) : ¬ w.map[k].isMineOf i = true := by
    rw [← own.heldMine, held]
    exact List.not_mem_nil
  refine h.one i ?_ (fun j hj => ⟨?_, bounds j hj⟩) h.lanes (h.queueOnce.filter _) (fun hne => absurd rfl hne) ?_
  · refine ⟨?_, fun k => ?_, fun k c f hk => ?_, fun l r hr hri => absurd hri (lane l r hr), fun hm => ?_,
      fun b hb hbi => absurd (own.transit b hb hbi).2 (noMine _)⟩
    · rw [hq]; exact own.record.failed held nofun bound why
    · rw [hq]; exact own.heldMine k
    · exact absurd ((MapEntry.isMineOf_iff _ _).mpr ⟨c, f, hk⟩) (noMine k)
    · simp at hm
  · exact ⟨(get j).trans (if_neg (Ne.symm hj)), fun _ => .inl rfl, fun l p hp hp' => ⟨p, hp, hp', id⟩,
      fun hm => (List.mem_filter.mp hm).1, fun b hb hbi => ⟨b, hb, hbi, rfl, id⟩⟩
  · intro hs j hj hsj
    rw [hq] at hs ⊢
    exact h.same_tag (r := w.streams[i].failed why) rfl (fun _ hn => nomatch hi.symm.trans hn) hs j hj hsj

theorem judging_other {i j : StreamNo} (hj : j ≠ i) (es : List StreamNo) : judging (i :: es) j = judging es j := by
  simp [judging, hj]

theorem judging_judged {i : StreamNo} {es : List StreamNo} (h : i ∉ es) : judging es i = Config.deferLimit := if_neg h

/-- The deferral limit judges one stream (R90). -/
theorem State.limitDeferral_fits {s : State} {i : StreamNo} {es : List StreamNo} (once : i ∉ es)
    (h : WorkFits (judging (i :: es)) .active s.work) : WorkFits (judging es) .active (s.limitDeferral i).work := by
  have own := h.stream i
  have bounds (j : StreamNo) (hj : j ≠ i) : judging (i :: es) j ≤ judging es j := (judging_other hj es).le
  unfold State.limitDeferral
  split
  · rename_i hlt
    refine { h with stream := fun j => ?_ }
    by_cases hj : j = i
    · subst hj
      exact { own with record := { own.record with deferralRange := (judging_judged once).symm ▸ hlt } }
    · exact (h.stream j).weaken (bounds j hj)
  · rename_i hlt
    have hclaim : s.streams[i].state = .claiming := by
      by_contra hc
      exact hlt ((own.record.claimFieldsClear hc).2.2.1 ▸ Nat.zero_lt_succ _)
    split
    · rename_i held
      have hlane (l : LaneNo) (r : Lane) (hr : r ∈ s.lanes[l]) : r.stream ≠ i := fun hi =>
        hlt ((own.laned l r hr hi).1.ready.2 ▸ Nat.zero_lt_succ _)
      exact (h.failQueued hclaim hlane held ((judging_judged once).symm ▸ Nat.zero_lt_succ _) bounds .noSlot).congr
        rfl rfl rfl rfl rfl
    · rw [State.shortStream_eq]
      have short : WorkFits (judging es) .active { s.work with
          streams := s.streams.set i { s.streams[i] with deferral := 0, shortPosted := true } } :=
        h.alikeOne ⟨rfl, rfl, rfl, rfl, rfl⟩
          { own.record with
            deferralRange := (judging_judged once).symm ▸ Nat.zero_lt_succ _
            claimFieldsClear := fun hn => absurd hclaim hn } bounds (.inl rfl) (.inr rfl)
      refine short.congr rfl rfl rfl ?_ rfl
      simp [State.modStream, State.work]

theorem State.limitDeferrals_fits {es : List StreamNo} (once : es.Nodup) {s : State}
    (h : WorkFits (judging es) .active s.work) : WorkFits deferBound .active (es.foldl State.limitDeferral s).work := by
  induction es generalizing s with
  | nil => exact h
  | cons i es ih =>
    obtain ⟨hi, hes⟩ := List.nodup_cons.mp once
    exact ih hes (State.limitDeferral_fits hi h)

theorem State.serveClaims_fits {s : State} (h : WorkFits deferBound .active s.work) :
    WorkFits deferBound .active s.serveClaims.work := by
  have hj := State.joinQueue_fits (State.countBackoffs_fits h)
  unfold State.serveClaims State.serveLanes State.limitDeferrals
  split
  · exact State.limitDeferrals_fits hj.queueOnce (State.countDeferrals_fits hj)
  · have hs := State.serveLane_fits (State.serveLane_fits hj 0) 1
    exact State.limitDeferrals_fits hs.queueOnce (hs.weaken (le_judging _))

end Sys2Proof.Machine
end

section
/-! PROOF. What the laws of the map, the claim engine, the streams and the in-transit block depend on, and how they pass
from one boundary of the cycle to the next. -/

namespace Sys2Proof.Machine

open Sys2Proof.Safety

/-! ## The map law, entry by entry -/

/-- What the map law says of one entry, in this station state and `n` ends of its slot after SETTLE was entered (R58,
R59, R62). -/
def MapEntry.fits (st : StationState) (n : Nat) : MapEntry → Bool
  | .unknown c => if st.onTimeline then st == .settle && decide (c < Config.lease) && c == n else c == 0
  | .free => st.onTimeline
  | .held _ c => decide (c < Config.lease) && st.onTimeline
  | .cooling c => decide (1 ≤ c) && decide (c ≤ Config.cool) && st.onTimeline
  | .probe _ _ => st == .active
  | .mine _ c _ => decide (c < Config.conflictLimit) && (st == .active || st == .leaving)

theorem entryLegal_eq (s : State) (k : SlotNo) (e : MapEntry) :
    entryLegal s k e = e.fits s.station (endsInSettle s k) := by cases e <;> rfl

theorem mapLegal_iff {s : State} : MapLegal s ↔ ∀ k : SlotNo, s.map[k].fits s.station (endsInSettle s k) = true :=
  forall_congr' fun k => by rw [entryLegal_eq]

namespace MapEntry

variable {st : StationState} {n : Nat} {e : MapEntry}

theorem fits_unknown_on (on : st.onTimeline = true) {c : Nat} :
    (unknown c).fits st n = true ↔ st = .settle ∧ c < Config.lease ∧ c = n := by
  change (if st.onTimeline then _ else _) = true ↔ _
  rw [if_pos on]
  simp [and_assoc]

theorem fits_unknown_off (off : st.onTimeline = false) {c : Nat} : (unknown c).fits st n = true ↔ c = 0 := by
  change (if st.onTimeline then _ else _) = true ↔ _
  rw [if_neg (by rw [off]; exact Bool.false_ne_true)]
  exact beq_iff_eq

theorem fits_free : free.fits st n = true ↔ st.onTimeline = true := Iff.rfl

theorem fits_held {holder : Option (Address × Byte)} {c : Nat} :
    (held holder c).fits st n = true ↔ c < Config.lease ∧ st.onTimeline = true := by
  change (decide _ && _) = true ↔ _
  rw [Bool.and_eq_true, decide_eq_true_eq]

theorem fits_cooling {c : Nat} :
    (cooling c).fits st n = true ↔ (1 ≤ c ∧ c ≤ Config.cool) ∧ st.onTimeline = true := by
  change (decide _ && decide _ && _) = true ↔ _
  rw [Bool.and_eq_true, Bool.and_eq_true, decide_eq_true_eq, decide_eq_true_eq]

theorem fits_probe {l : LaneNo} {i : StreamNo} : (probe l i).fits st n = true ↔ st = .active := beq_iff_eq

theorem fits_mine {i : StreamNo} {c : Nat} {f : Bool} :
    (mine i c f).fits st n = true ↔ c < Config.conflictLimit ∧ (st = .active ∨ st = .leaving) := by
  change (decide _ && (_ == _ || _ == _)) = true ↔ _
  rw [Bool.and_eq_true, Bool.or_eq_true, decide_eq_true_eq, beq_iff_eq, beq_iff_eq]

theorem fits_fresh (on : st.onTimeline = true) (holder : Option (Address × Byte)) : (held holder 0).fits st n = true :=
  fits_held.mpr ⟨Nat.zero_lt_succ _, on⟩

/-- Out of SETTLE the number of ends does not matter. -/
theorem fits_count (h : st ≠ .settle) (n m : Nat) (e : MapEntry) : e.fits st n = e.fits st m := by
  cases e with
  | unknown c =>
    refine Bool.eq_iff_iff.mpr ?_
    cases on : st.onTimeline with
    | true => rw [fits_unknown_on on, fits_unknown_on on]; exact iff_of_false (fun hs => h hs.1) fun hs => h hs.1
    | false => rw [fits_unknown_off on, fits_unknown_off on]
  | _ => rfl

/-- An owned entry is there in ACTIVE or LEAVING only (R73). -/
theorem onBus_of_fits (h : e.fits st n = true) (ho : e.owned = true) : st = .active ∨ st = .leaving := by
  cases e with
  | probe l i => exact .inl (fits_probe.mp h)
  | mine i c f => exact (fits_mine.mp h).2
  | _ => cases ho

end MapEntry

/-! ## What these laws depend on -/

/-- The next boundary of the cycle, absent off a timeline. -/
def State.boundary (s : State) : Option Boundary := s.timeline.map (·.nextBoundary)

/-- What the laws of the map, the claim engine, the streams and the in-transit block are about. -/
structure EngineView where
  station : StationState
  settle : Nat
  boundary : Option Boundary
  frame : Option Frame
  map : Vector MapEntry 48
  claimQueue : List StreamNo
  lanes : Vector (Option Lane) 2
  streams : Vector Stream 8
  inTransit : Option InTransit

def State.engineView (s : State) : EngineView :=
  { station := s.station, settle := s.settle, boundary := s.boundary, frame := s.tx.map (·.frame), map := s.map
    claimQueue := s.claimQueue, lanes := s.lanes, streams := s.streams, inTransit := s.inTransit }

theorem endsInSettle_eq (s : State) (k : SlotNo) :
    endsInSettle s k = Config.settleCycles - s.settle + if s.boundary.map (pastSlot k) = some true then 1 else 0 := by
  unfold endsInSettle State.boundary
  rw [Option.map_map]
  rfl

theorem sendsMark_eq {s t : State} (h : t.tx.map (·.frame) = s.tx.map (·.frame)) (m : Mark) :
    sendsMark t m = sendsMark s m := by
  unfold sendsMark
  cases hs : s.tx with
  | none => rw [hs, Option.map_none, Option.map_eq_none_iff] at h; rw [h]
  | some x =>
    rw [hs, Option.map_some, Option.map_eq_some_iff] at h
    obtain ⟨y, hy, hf⟩ := h
    obtain ⟨_, _⟩ := x
    obtain ⟨_, _⟩ := y
    cases hf
    rw [hy]
    rename_i f _ _
    cases f <;> rfl

theorem sendsMark_none {s : State} (h : s.tx = none) (m : Mark) : sendsMark s m = false := by rw [sendsMark, h]

namespace EngineLegal

variable {s t : State}

theorem view (h : EngineLegal s) (hv : t.engineView = s.engineView) : EngineLegal t := by
  obtain ⟨station, settle, boundary, frame, map, claimQueue, lanes, streams, inTransit⟩ := EngineView.mk.inj hv
  refine ⟨?_, ?_, ?_⟩
  · rw [station]
    exact h.work.congr map claimQueue lanes streams inTransit
  · rw [mapLegal_iff]
    intro k
    rw [map, station, endsInSettle_eq, settle, boundary, ← endsInSettle_eq]
    exact mapLegal_iff.mp h.map k
  · refine ⟨?_, ?_, ?_, fun u hu k hk hm => ?_⟩
    · rw [inTransit, station]; exact h.transit.onTimeline
    · rw [inTransit]; exact fun b hb => boundary.trans (h.transit.due b hb)
    · rw [inTransit]; exact fun b hb => (sendsMark_eq frame _).trans (h.transit.sent b hb)
    · have hb : s.boundary = some (.slotEnd k) := by
        rw [← boundary, State.boundary, Option.mem_def.mp hu, Option.map_some, hk]
      obtain ⟨v, hv, hvk⟩ := Option.map_eq_some_iff.mp hb
      rw [map]
      exact h.transit.finalUnderWay v hv k hvk ((sendsMark_eq frame _).symm.trans hm)

/-- A block is in transit only until its slot ends (R106). -/
theorem transit_none (h : EngineLegal s) (hb : ∀ k, s.boundary ≠ some (.slotEnd k)) : s.inTransit = none :=
  Option.eq_none_iff_forall_not_mem.mpr fun b hm => hb b.slot (h.transit.due b hm)

/-- Between the slot ends no block is in transit, and no frame has to be judged. -/
theorem between (work : WorkFits deferBound t.station t.work) (map : MapLegal t) (transit : t.inTransit = none)
    (due : ∀ k, t.boundary ≠ some (.slotEnd k)) : EngineLegal t where
  work := work
  map := map
  transit :=
    { onTimeline := fun _ hb => nomatch transit.symm.trans hb
      due := fun _ hb => nomatch transit.symm.trans hb
      sent := fun _ hb => nomatch transit.symm.trans hb
      finalUnderWay := fun u hu k hk => absurd (by rw [State.boundary, Option.mem_def.mp hu, Option.map_some, hk]) (due k) }

/-- One boundary passes to another, with what is handed over for its division (R2, R6). -/
theorem pass (h : EngineLegal s) {b b' : Boundary} (hb : s.boundary = some b) (hs : ∀ k, b ≠ .slotEnd k)
    (hs' : ∀ k, b' ≠ .slotEnd k) {f : Option Frame}
    (hv : t.engineView = { s.engineView with boundary := some b', frame := f })
    (past : s.station = .settle → ∀ k, pastSlot k b' = pastSlot k b) : EngineLegal t := by
  obtain ⟨station, settle, boundary, -, map, claimQueue, lanes, streams, inTransit⟩ := EngineView.mk.inj hv
  have quiet := h.transit_none fun k hk => hs k (Option.some.inj (hb.symm.trans hk))
  refine .between ?_ (mapLegal_iff.mpr fun k => ?_) (inTransit.trans quiet) fun k hk => ?_
  · rw [station]
    exact h.work.congr map claimQueue lanes streams inTransit
  · have hk := mapLegal_iff.mp h.map k
    rw [map, station]
    by_cases hst : s.station = .settle
    · have same : endsInSettle t k = endsInSettle s k := by
        rw [endsInSettle_eq, endsInSettle_eq, boundary, settle, hb, Option.map_some, Option.map_some, past hst]
        rfl
      rw [same]
      exact hk
    · exact (MapEntry.fits_count hst _ _ _).trans hk
  · exact hs' k (Option.some.inj (boundary.symm.trans hk))

end EngineLegal

/-! ## The working part under changes of station state and of entries that no stream owns -/

theorem Stream.Fits.enter {D : Nat} {st st' : StationState} {r : Stream} (h : r.Fits D st) (leaving : st' ≠ .leaving)
    (live : r.state ≠ .live) (closing : r.state ≠ .closing) : r.Fits D st' :=
  { h with
    leavingCloses := fun hl => absurd hl leaving
    liveOnlyActive := fun _ => live
    closingOnlyOnTimeline := fun _ _ => closing }

/-- A station that neither was nor is on the bus with its own slots keeps its working part. -/
theorem WorkFits.enter {D : StreamNo → Nat} {st st' : StationState} {w : Work} (h : WorkFits D st w)
    (active : st ≠ .active) (leaving : st ≠ .leaving) (leaving' : st' ≠ .leaving) : WorkFits D st' w where
  stream i :=
    have r := (h.stream i).record
    { h.stream i with
      record := r.enter leaving' (r.liveOnlyActive active) (r.closingOnlyOnTimeline active leaving) }
  lanes := h.lanes
  queueOnce := h.queueOnce
  onlyActive _ := h.onlyActive active
  tagsDiffer := h.tagsDiffer

/-- Entries that no stream owns may change. -/
theorem WorkFits.entries {D : StreamNo → Nat} {st : StationState} {w : Work} (h : WorkFits D st w)
    {map : Vector MapEntry 48} (same : ∀ k : SlotNo, map[k] = w.map[k] ∨ (map[k].owned = false ∧ w.map[k].owned = false)) :
    WorkFits D st { w with map := map } := by
  have mine (k : SlotNo) (i : StreamNo) : map[k].isMineOf i = w.map[k].isMineOf i := by
    rcases same k with he | ⟨h1, h2⟩
    · rw [he]
    · rw [MapEntry.not_mine_of_not_owned h1, MapEntry.not_mine_of_not_owned h2]
  refine ⟨fun i => ?_, h.lanes.entries fun k => ?_, h.queueOnce, h.onlyActive, h.tagsDiffer⟩
  · refine { h.stream i with heldMine := fun k => ?_, final := fun k c f hk => ?_, transit := fun b hb hi => ?_ }
    · rw [mine]; exact (h.stream i).heldMine k
    · rcases same k with he | ⟨h1, -⟩
      · exact (h.stream i).final k c f (he.symm.trans hk)
      · rw [show map[k] = _ from hk] at h1
        cases h1
    · rw [mine]; exact (h.stream i).transit b hb hi
  · rcases same k with he | ⟨h1, h2⟩
    · exact .inl he
    · exact .inr fun l i => ⟨MapEntry.not_probe_of_not_owned h2 l i, MapEntry.not_probe_of_not_owned h1 l i⟩

/-- Where no stream may own a slot none does. -/
theorem EngineLegal.unowned {s : State} (h : EngineLegal s) (active : s.station ≠ .active) (leaving : s.station ≠ .leaving)
    (k : SlotNo) : s.map[k].owned = false :=
  Bool.eq_false_iff.mpr fun ho => (MapEntry.onBus_of_fits (mapLegal_iff.mp h.map k) ho).elim active leaving

end Sys2Proof.Machine
end

section
/-! PROOF. Stations that leave the bus: arrivals in READY, losses of synchronization and merges keep the laws of the map,
the claim engine and the streams. -/

namespace Sys2Proof.Machine

open Sys2Proof.Safety

/-! ## Records once no stream holds a slot -/

/-- What a timeline drop leaves of a record fits every station state but LEAVING (R38). -/
theorem Stream.Fits.drop {D : Nat} {st st' : StationState} {r : Stream} (h : r.Fits D st) (pos : 0 < D)
    (leaving : st' ≠ .leaving) : r.drop.Fits D st' ∧ r.drop.held = [] := by
  have kept (hs : r.state = .idle ∨ r.state = .failed) : r.Fits D st' ∧ r.held = [] :=
    ⟨h.enter leaving (by rcases hs with hs | hs <;> rw [hs] <;> exact nofun)
      (by rcases hs with hs | hs <;> rw [hs] <;> exact nofun), h.idleHolds hs⟩
  have claiming (hf : r.failure = none) :
      ({ r.clearClaim with state := .claiming, held := [] } : Stream).Fits D st' :=
    { wantedRange := h.wantedRange
      heldOnce := List.nodup_nil
      heldRoom := Nat.zero_le _
      liveHolds := nofun
      idleHolds := fun _ => rfl
      closingHolds := nofun
      attemptsRange := Nat.zero_lt_succ _
      backoffRange := Nat.zero_lt_succ _
      deferralRange := pos
      claimFieldsClear := fun hn => absurd rfl hn
      failureHeld := by simp [Stream.clearClaim, hf]
      leavingCloses := fun hl => absurd hl leaving
      liveOnlyActive := nofun
      closingOnlyOnTimeline := nofun
      emptyWhenClosed := fun hs => hs.elim nofun nofun
      queueRoom := h.queueRoom }
  have unfailed (hs : r.state ≠ .failed) : r.failure = none := by
    rw [← Option.not_isSome_iff_eq_none, h.failureHeld]
    exact hs
  unfold Stream.drop
  cases hs : r.state with
  | idle => exact kept (.inl hs)
  | failed => exact kept (.inr hs)
  | claiming => exact ⟨claiming (unfailed (by rw [hs]; exact nofun)), rfl⟩
  | live => exact ⟨claiming (unfailed (by rw [hs]; exact nofun)), rfl⟩
  | closing =>
    refine ⟨?_, rfl⟩
    exact { h with
      heldOnce := List.nodup_nil
      heldRoom := Nat.zero_le _
      liveHolds := nofun
      idleHolds := fun _ => rfl
      closingHolds := nofun
      claimFieldsClear := fun _ => h.claimFieldsClear (by rw [hs]; exact nofun)
      failureHeld := by simp [unfailed (show r.state ≠ .failed by rw [hs]; exact nofun)]
      leavingCloses := fun hl => absurd hl leaving
      liveOnlyActive := nofun
      closingOnlyOnTimeline := nofun
      emptyWhenClosed := fun _ => h.emptyWhenClosed (.inr hs) }

theorem Stream.drop_tag (r : Stream) : r.drop.tag = r.tag := by
  unfold Stream.drop; cases r.state <;> rfl

theorem Stream.used_of_drop {r : Stream} (h : r.drop.state ≠ .idle) : r.state ≠ .idle := by
  intro hs
  apply h
  unfold Stream.drop
  rw [hs]
  exact hs

/-- What a STOP leaves of the record of a stream that holds no slot (R35). -/
theorem Stream.Fits.stopped {D : Nat} {st st' : StationState} {r : Stream} (h : r.Fits D st) (pos : 0 < D)
    (holds : r.held = [] ∨ st' = .active ∨ st' = .leaving) : r.stopped.Fits D st' := by
  have state : r.stopped.state = if r.held = [] then .idle else .closing := rfl
  have ended : r.stopped.state = .idle ∨ r.stopped.state = .closing := by
    rw [state]; split <;> simp
  exact
    { wantedRange := h.wantedRange
      heldOnce := h.heldOnce
      heldRoom := h.heldRoom
      liveHolds := fun hl => by rw [hl] at ended; exact ended.elim nofun nofun
      idleHolds := fun hi => by
        rw [state] at hi
        by_contra hh
        rw [if_neg (show ¬ r.held = [] from hh)] at hi
        exact hi.elim nofun nofun
      closingHolds := fun hc hh => by rw [state, if_pos (show r.held = [] from hh)] at hc; cases hc
      attemptsRange := Nat.zero_lt_succ _
      backoffRange := Nat.zero_lt_succ _
      deferralRange := pos
      claimFieldsClear := fun _ => ⟨rfl, rfl, rfl, rfl⟩
      failureHeld := iff_of_false nofun fun hf => by rw [hf] at ended; exact ended.elim nofun nofun
      leavingCloses := fun _ => ended
      liveOnlyActive := fun _ hl => by rw [hl] at ended; exact ended.elim nofun nofun
      closingOnlyOnTimeline := fun ha hl hc => by
        rw [state, if_pos (holds.resolve_right fun hn => hn.elim ha hl)] at hc
        cases hc
      emptyWhenClosed := fun _ => rfl
      queueRoom := Nat.zero_le _ }

/-! ## The queues once a block in transit has been settled (R38) -/

theorem WorkFits.returnedQueue {s : State} {st : StationState} (h : WorkFits deferBound st s.work) (i : StreamNo) :
    (s.returnedQueue i).length ≤ Config.txBlocks ∧
      (s.streams[i].state = .idle ∨ s.streams[i].state = .closing → s.returnedQueue i = []) := by
  have own := h.stream i
  unfold State.returnedQueue
  split
  · rename_i d hd
    split
    · rename_i hr
      have carries := (own.transit d hd hr.1).1
      obtain ⟨idle, closing⟩ := carries.returns hr.2
      exact ⟨carries.room, fun hs => (hs.elim idle closing).elim⟩
    · exact ⟨own.record.queueRoom, own.record.emptyWhenClosed⟩
  · exact ⟨own.record.queueRoom, own.record.emptyWhenClosed⟩

theorem WorkFits.dropped {s : State} {st st' : StationState} (h : WorkFits deferBound st s.work) (leaving : st' ≠ .leaving)
    (i : StreamNo) : (s.droppedStream i).Fits Config.deferLimit st' ∧ (s.droppedStream i).held = [] :=
  have hq := h.returnedQueue i
  Stream.Fits.drop (r := { s.streams[i] with queue := s.returnedQueue i })
    { (h.stream i).record with emptyWhenClosed := hq.2, queueRoom := hq.1 } (Nat.zero_lt_succ _) leaving

theorem State.droppedStreams_of_none {s : State} (h : s.inTransit = none) :
    (Vector.ofFn fun i => s.streams[i].drop) = Vector.ofFn s.droppedStream := by
  refine congrArg Vector.ofFn (funext fun i => ?_)
  have hq : s.returnedQueue i = s.streams[i].queue := by simp only [State.returnedQueue, h]
  rw [State.droppedStream, hq]

/-- No two streams in use have one tag (R107). -/
def TagsDiffer (v : Vector Stream 8) : Prop :=
  ∀ i j : StreamNo, i ≠ j → v[i].state ≠ .idle → v[j].state ≠ .idle → v[i].tag ≠ v[j].tag

theorem TagsDiffer.of_used {v w : Vector Stream 8} (h : TagsDiffer v)
    (used : ∀ i : StreamNo, w[i].tag = v[i].tag ∧ (w[i].state ≠ .idle → v[i].state ≠ .idle)) : TagsDiffer w := by
  intro i j hij hi hj
  rw [(used i).1, (used j).1]
  exact h i j hij ((used i).2 hi) ((used j).2 hj)

theorem WorkFits.dropped_tags {s : State} {st : StationState} (h : WorkFits deferBound st s.work) :
    TagsDiffer (Vector.ofFn s.droppedStream) := by
  refine TagsDiffer.of_used h.tagsDiffer fun i => ?_
  have hi : (Vector.ofFn s.droppedStream)[i] = s.droppedStream i := Vector.getElem_ofFn i.isLt
  rw [hi]
  exact ⟨Stream.drop_tag _, fun hu => Stream.used_of_drop (r := { s.streams[i] with queue := s.returnedQueue i }) hu⟩

/-! ## A station off the timeline -/

/-- Off the timeline, with no stream that holds a slot (R38, R39). -/
theorem EngineLegal.swept {t : State} (off : t.station.onTimeline = false) (timeline : t.timeline = none)
    (map : ∀ k : SlotNo, t.map[k] = .unknown 0) (queue : t.claimQueue = []) (lanes : ∀ l : LaneNo, t.lanes[l] = none)
    (transit : t.inTransit = none)
    (records : ∀ i : StreamNo, t.streams[i].Fits Config.deferLimit t.station ∧ t.streams[i].held = [])
    (tags : TagsDiffer t.streams) : EngineLegal t := by
  refine .between (.bare (fun i => (records i).1) (fun i => (records i).2) (fun k => ?_) queue lanes transit tags)
    (mapLegal_iff.mpr fun k => ?_) transit fun k hk => ?_
  · exact congrArg MapEntry.owned (map k)
  · rw [map]; exact (MapEntry.fits_unknown_off off).mpr rfl
  · rw [State.boundary, timeline] at hk; cases hk

theorem no_entry (k : SlotNo) : (Vector.ofFn fun _ : SlotNo => MapEntry.unknown 0)[k] = .unknown 0 :=
  Vector.getElem_ofFn k.isLt

theorem no_lane (l : LaneNo) : (Vector.replicate 2 (none : Option Lane))[l] = none := Vector.getElem_replicate l.isLt

/-- The streams that a drop leaves, off the timeline or on another one. -/
theorem WorkFits.dropped_records {s : State} {st st' : StationState} (h : WorkFits deferBound st s.work)
    (leaving : st' ≠ .leaving) (i : StreamNo) : (Vector.ofFn s.droppedStream)[i].Fits Config.deferLimit st' ∧
      (Vector.ofFn s.droppedStream)[i].held = [] := by
  have hi : (Vector.ofFn s.droppedStream)[i] = s.droppedStream i := Vector.getElem_ofFn i.isLt
  rw [hi]
  exact h.dropped leaving i

/-! ## Losses of synchronization (R31, R32) -/

theorem State.loseSync_engine {s : State} {t : Timeline} {st : StationState} (h : WorkFits deferBound st s.work)
    (ht : s.timeline = some t) (transit : s.inTransit = none) : EngineLegal s.loseSync := by
  obtain ⟨d, -, he⟩ := State.loseSync_eq ht transit
  rw [he, State.droppedStreams_of_none transit]
  exact .swept rfl rfl no_entry rfl no_lane transit (h.dropped_records nofun) h.dropped_tags

theorem State.loseSyncLeaving_engine {s : State} {st : StationState} (h : WorkFits deferBound st s.work)
    (transit : s.inTransit = none) : EngineLegal s.loseSyncLeaving := by
  rw [State.loseSyncLeaving_eq transit, State.droppedStreams_of_none transit]
  exact .swept rfl rfl no_entry rfl no_lane transit (h.dropped_records nofun) h.dropped_tags

/-! ## Merges (R33, R55) -/

theorem State.mergeLeaving_engine {s : State} {st : StationState} (h : WorkFits deferBound st s.work)
    (b : BeaconFrame) : EngineLegal (s.mergeLeaving b) := by
  rw [State.mergeLeaving_eq]
  exact .swept rfl rfl no_entry rfl no_lane rfl (h.dropped_records nofun) h.dropped_tags

theorem Boundary.afterPosition_not_slotEnd (p : Position) (k : SlotNo) : Boundary.afterPosition p ≠ .slotEnd k := by
  unfold Boundary.afterPosition; split <;> exact nofun

theorem pastSlot_afterPosition (p : Position) (k : SlotNo) : pastSlot k (Boundary.afterPosition p) = false := by
  unfold Boundary.afterPosition; split <;> rfl

/-- A station that has just joined a timeline has heard no slot end yet (R62). -/
theorem joined_ends {t : State} {b : BeaconFrame} {firstBit : Time} (settle : t.settle = Config.settleCycles)
    (timeline : t.timeline = some (b.timeline firstBit)) (k : SlotNo) : endsInSettle t k = 0 := by
  have hb : t.boundary = some (Boundary.afterPosition b.position) := by rw [State.boundary, timeline]; rfl
  rw [endsInSettle_eq, settle, hb, Option.map_some, pastSlot_afterPosition]
  rfl

theorem joined_due {t : State} {b : BeaconFrame} {firstBit : Time}
    (timeline : t.timeline = some (b.timeline firstBit)) (k : SlotNo) : t.boundary ≠ some (.slotEnd k) := by
  rw [State.boundary, timeline]
  exact fun h => Boundary.afterPosition_not_slotEnd b.position k (Option.some.inj h)

theorem State.mergeOnto_engine {s : State} {st : StationState} (h : WorkFits deferBound st s.work) (b : BeaconFrame)
    (firstBit : Time) : EngineLegal (s.mergeOnto b firstBit) := by
  have entry (k : SlotNo) : (s.mergeOnto b firstBit).map[k] = if b.occupancy[k] then .held none 0 else .unknown 0 := by
    rw [State.mergeOnto_eq]; exact Vector.getElem_ofFn k.isLt
  have station : (s.mergeOnto b firstBit).station = .settle := by rw [State.mergeOnto_eq]
  have settle : (s.mergeOnto b firstBit).settle = Config.settleCycles := by rw [State.mergeOnto_eq]
  have timeline : (s.mergeOnto b firstBit).timeline = some (b.timeline firstBit) := by rw [State.mergeOnto_eq]
  have streams : (s.mergeOnto b firstBit).streams = Vector.ofFn s.droppedStream := by rw [State.mergeOnto_eq]
  have transit : (s.mergeOnto b firstBit).inTransit = none := by rw [State.mergeOnto_eq]
  refine .between (.bare (fun i => ?_) (fun i => ?_) (fun k => ?_) ?_ (fun l => ?_) transit ?_)
    (mapLegal_iff.mpr fun k => ?_) transit (joined_due timeline)
  · change (s.mergeOnto b firstBit).streams[i].Fits _ _
    rw [streams, station]
    exact (h.dropped_records (st' := .settle) nofun i).1
  · change (s.mergeOnto b firstBit).streams[i].held = []
    rw [streams]
    exact (h.dropped_records (st' := .settle) nofun i).2
  · refine (congrArg MapEntry.owned (entry k)).trans ?_
    split <;> rfl
  · change (s.mergeOnto b firstBit).claimQueue = []
    rw [State.mergeOnto_eq]
  · change (s.mergeOnto b firstBit).lanes[l] = none
    rw [State.mergeOnto_eq]
    exact no_lane l
  · change TagsDiffer (s.mergeOnto b firstBit).streams
    rw [streams]
    exact h.dropped_tags
  · rw [entry, station, joined_ends settle timeline]
    split <;> rfl

/-! ## The arrival of a leaving station (R37) -/

theorem State.checkLeft_engine {s : State} (h : EngineLegal s) : EngineLegal s.checkLeft := by
  unfold State.checkLeft
  split
  · rename_i hl
    obtain ⟨hs, hm⟩ := hl
    have mine (k : SlotNo) (i : StreamNo) : ¬ s.map[k].isMineOf i = true := by
      intro hk
      obtain ⟨c, f, hk⟩ := (MapEntry.isMineOf_iff _ _).mp hk
      have hn := List.any_eq_false.mp hm k (List.mem_finRange k)
      rw [hk] at hn
      exact hn rfl
    have held (i : StreamNo) : s.streams[i].held = [] :=
      List.eq_nil_iff_forall_not_mem.mpr fun k hk => mine k i (((h.stream i).heldMine k).mp hk)
    have idle (i : StreamNo) : s.streams[i].state = .idle :=
      ((h.stream i).record.leavingCloses hs).resolve_right fun hc => (h.stream i).record.closingHolds hc (held i)
    have transit : s.inTransit = none := Option.eq_none_iff_forall_not_mem.mpr fun b hb =>
      mine b.slot b.stream ((h.stream b.stream).transit b hb rfl).2
    rw [State.arriveReady_eq]
    exact .swept rfl rfl no_entry rfl no_lane transit
      (fun i => ⟨(h.stream i).record.enter nofun (fun hl => nomatch (idle i).symm.trans hl)
        (fun hc => nomatch (idle i).symm.trans hc), held i⟩)
      h.work.tagsDiffer
  · exact h

end Sys2Proof.Machine
end

section
/-! PROOF. The cycle events outside the slot occurrences, and the reports of the line, keep the laws of the map, the claim
engine and the streams. -/

namespace Sys2Proof.Machine

open Sys2Proof.Safety

/-! ## From one boundary to the next -/

theorem State.boundary_eq {s : State} {t : Timeline} {b : Boundary} (ht : s.timeline = some t) (hb : t.nextBoundary = b) :
    s.boundary = some b := by rw [State.boundary, ht, Option.map_some, hb]

theorem State.nextIs_boundary {s : State} {b : Boundary} (h : s.boundary = some b) (b' : Boundary) :
    (s.nextIs b').boundary = some b' := by
  obtain ⟨t, ht, -⟩ := Option.map_eq_some_iff.mp h
  simp [State.boundary, State.nextIs, ht]

theorem State.nextIs_view {s u : State} {b : Boundary} {f : Option Frame} (h : s.boundary = some b)
    (hu : u.engineView = { s.engineView with frame := f }) (b' : Boundary) :
    (u.nextIs b').engineView = { s.engineView with boundary := some b', frame := f } := by
  have hb : u.boundary = some b := (congrArg EngineView.boundary hu).trans h
  calc (u.nextIs b').engineView
    _ = { u.engineView with boundary := (u.nextIs b').boundary } := rfl
    _ = { u.engineView with boundary := some b' } := by rw [State.nextIs_boundary hb]
    _ = { s.engineView with boundary := some b', frame := f } := by rw [hu]

theorem State.atEvent_engine {s : State} (h : EngineLegal s) {b : Boundary} {f : Timeline → State → State}
    (k : ∀ t, s.station.onTimeline = true → s.timeline = some t → t.nextBoundary = b → EngineLegal (f t s)) :
    EngineLegal (s.atEvent b f) := by
  rcases s.atEvent_cases b f with ⟨t, -, on, ht, hb, he⟩ | he <;> rw [he]
  · exact k t on ht hb
  · exact h

theorem State.unlessHeld_engine {s : State} (h : EngineLegal s) {f : State → State} (k : EngineLegal (f s)) :
    EngineLegal (s.unlessHeld f) := by
  rcases s.unlessHeld_cases f with ⟨-, he⟩ | ⟨-, he⟩ <;> rw [he]
  · exact h
  · exact k

/-! ## Entries that no stream owns -/

theorem EngineLegal.entries {s t : State} (h : EngineLegal s) {map : Vector MapEntry 48}
    (hv : t.engineView = { s.engineView with map := map })
    (same : ∀ k : SlotNo, map[k] = s.map[k] ∨ (map[k].owned = false ∧ s.map[k].owned = false))
    (fits : ∀ k : SlotNo, map[k].fits s.station (endsInSettle s k) = true) : EngineLegal t := by
  suffices EngineLegal { s with map := map } from this.view hv
  refine ⟨h.work.entries same, mapLegal_iff.mpr fits, h.transit.onTimeline, h.transit.due, h.transit.sent,
    fun u hu k hk hm hmine => ?_⟩
  rcases same k with he | ⟨ho, -⟩
  · change finalPending map[k] = true
    rw [he]
    exact h.transit.finalUnderWay u hu k hk hm (he ▸ hmine)
  · change map[k].isMine = true at hmine
    cases hk : map[k] <;> simp_all [MapEntry.owned, MapEntry.isMine]

theorem MapEntry.fits_reported {st : StationState} {n : Nat} {e : MapEntry} (on : st.onTimeline = true)
    (h : e.fits st n = true) : e.reported.fits st n = true := by
  cases e with
  | unknown c => exact MapEntry.fits_fresh on none
  | free => exact MapEntry.fits_fresh on none
  | _ => exact h

theorem MapEntry.reported_owned (e : MapEntry) : e.reported = e ∨ (e.reported.owned = false ∧ e.owned = false) := by
  cases e <;> simp [MapEntry.reported, MapEntry.owned]

theorem State.mapEntries_view (s : State) (f : SlotNo → MapEntry → MapEntry) :
    (s.mapEntries f).engineView = { s.engineView with map := (s.mapEntries f).map } := by
  simp only [State.engineView, State.boundary, State.mapEntries_station, State.mapEntries_settle, State.mapEntries_timeline,
    State.mapEntries_tx, State.mapEntries_claimQueue, State.mapEntries_lanes, State.mapEntries_streams,
    State.mapEntries_inTransit]

theorem State.mergeSummary_engine {s : State} (h : EngineLegal s) (on : s.station.onTimeline = true)
    (summary : SlotFlags) : EngineLegal (s.mergeSummary summary) := by
  have entry (k : SlotNo) : (s.mergeSummary summary).map[k] = if summary[k] then s.map[k].reported else s.map[k] :=
    Vector.getElem_ofFn k.isLt
  refine h.entries (map := (s.mergeSummary summary).map) (s.mapEntries_view _) (fun k => ?_) fun k => ?_
  · rw [entry]
    split
    · exact MapEntry.reported_owned _
    · exact .inl rfl
  · have hk := mapLegal_iff.mp h.map k
    rw [entry]
    split
    · exact MapEntry.fits_reported on hk
    · exact hk

/-! ## What leaves these laws alone -/

theorem State.checkAddress_view (s : State) (a : Address) : (s.checkAddress a).engineView = s.engineView := by
  rw [State.checkAddress_eq]; rfl

theorem State.compareCycle_view (s : State) (b : BeaconFrame) : (s.compareCycle b).engineView = s.engineView := by
  unfold State.compareCycle
  split
  · rfl
  · have hb : (s.timeline.map fun t => { t with cycle := b.cycle }).map (·.nextBoundary) = s.boundary := by
      rw [Option.map_map]; rfl
    rw [State.engineView, State.boundary, hb]
    rfl

theorem State.trim_view (s : State) (b : BeaconFrame) (firstBit : Time) : (s.trim b firstBit).engineView = s.engineView := by
  have hb : (s.trim b firstBit).boundary = s.boundary := Option.map_map ..
  rw [State.engineView, hb]
  rfl

theorem State.drawPosition_view (s : State) : s.drawPosition.engineView = s.engineView := by
  unfold State.drawPosition; split <;> rfl

theorem State.openPosition_view (s : State) (t : Timeline) (p : Position) :
    ∃ f, (s.openPosition t p).engineView = { s.engineView with frame := f } := by
  unfold State.openPosition
  split
  · split
    · exact ⟨s.tx.map (·.frame), rfl⟩
    · exact ⟨some (s.beaconFrame t p), rfl⟩
  · exact ⟨s.tx.map (·.frame), rfl⟩

theorem State.hears_view (s : State) (time : Time) : (s.hears time).engineView = s.engineView := by
  unfold State.hears; split <;> rfl

theorem State.startTimer_view (s : State) : s.startTimer.engineView = s.engineView := rfl

/-! ## The beacon phase (R43 to R48) -/

theorem execCycleStart_engine {s t : State} (h : EngineLegal s) (he : execCycleStart s = .next t) : EngineLegal t := by
  cases he
  refine State.atEvent_engine h fun u _ hu hb => ?_
  refine h.pass (b' := .positionOpen 0) (State.boundary_eq hu hb) nofun nofun (f := s.tx.map (·.frame))
    ((State.drawPosition_view _).trans rfl) fun _ k => rfl

theorem execBeaconPosition_engine {p : Position} {s t : State} (h : EngineLegal s)
    (he : execBeaconPosition p s = .next t) : EngineLegal t := by
  cases he
  refine State.atEvent_engine h fun u _ hu hb => ?_
  have hb := State.boundary_eq hu hb
  obtain ⟨f, hf⟩ := s.openDivision.openPosition_view u p
  exact h.pass (b' := .positionClose p) hb nofun nofun (State.nextIs_view hb hf _) fun _ k => rfl

theorem State.takePosition_engine {s : State} (h : EngineLegal s) (on : s.station.onTimeline = true)
    (c : ObsClass HeardBeacon) : EngineLegal (s.takePosition c) := by
  unfold State.takePosition
  split
  · exact h
  · rename_i b firstBit
    have taken : EngineLegal ((s.beaconWasHeard.compareCycle b).trim b firstBit) :=
      (h.view (t := s.beaconWasHeard) rfl).view ((State.trim_view _ _ _).trans (State.compareCycle_view _ _))
    have station : ((s.beaconWasHeard.compareCycle b).trim b firstBit).station = s.station :=
      congrArg EngineView.station ((State.trim_view _ b firstBit).trans (State.compareCycle_view s.beaconWasHeard b))
    exact (State.mergeSummary_engine taken (station ▸ on) b.occupancy).view (State.checkAddress_view _ _)
  · exact h
  · exact h.view rfl
  · exact h

theorem State.takePosition_boundary (s : State) (c : ObsClass HeardBeacon) : (s.takePosition c).boundary = s.boundary := by
  unfold State.takePosition
  split
  · rfl
  · rename_i b firstBit
    have hb := congrArg EngineView.boundary (State.checkAddress_view
      (((s.beaconWasHeard.compareCycle b).trim b firstBit).mergeSummary b.occupancy) b.sender)
    have hm := congrArg EngineView.boundary
      (State.mapEntries_view ((s.beaconWasHeard.compareCycle b).trim b firstBit)
        fun k e => if b.occupancy[k] then e.reported else e)
    exact hb.trans (hm.trans (congrArg EngineView.boundary
      ((State.trim_view _ b firstBit).trans (State.compareCycle_view s.beaconWasHeard b))))
  all_goals rfl

theorem State.closePosition_engine {s : State} {t : Timeline} {p : Position} (h : EngineLegal s)
    (on : s.station.onTimeline = true) (hb : s.boundary = some (.positionClose p)) : EngineLegal (s.closePosition t p) := by
  have closed : EngineLegal s.closeDivision :=
    .between h.work h.map (h.transit_none fun k hk => nomatch hb.symm.trans hk) fun k hk => nomatch hb.symm.trans hk
  have past (k : SlotNo) : pastSlot k (Boundary.afterPosition p) = pastSlot k (.positionClose p) :=
    pastSlot_afterPosition p k
  unfold State.closePosition
  split
  · rename_i x hx
    refine State.checkLeft_engine ?_
    refine h.pass hb nofun (Boundary.afterPosition_not_slotEnd p) (State.nextIs_view hb (f := none) ?_ _) fun _ => past
    unfold State.beaconOutcome
    split <;> rfl
  · have taken := State.takePosition_engine closed on (s.positionClass t p)
    have hb' : (s.closeDivision.takePosition (s.positionClass t p)).boundary = some (.positionClose p) :=
      (State.takePosition_boundary _ _).trans hb
    exact taken.pass hb' nofun (Boundary.afterPosition_not_slotEnd p) (State.nextIs_view hb' rfl _) fun _ => past

theorem execBeaconPositionClose_engine {p : Position} {s t : State} (h : EngineLegal s)
    (he : execBeaconPositionClose p s = .next t) : EngineLegal t := by
  cases he
  refine State.atEvent_engine h fun u on hu hb => ?_
  split
  · exact h
  · exact State.closePosition_engine h on (State.boundary_eq hu hb)

/-! ## The slot-phase start (R85) -/

theorem State.boundary_of_stationView {s t : State} (h : t.stationView = s.stationView) : t.boundary = s.boundary := by
  have ht : t.timeline = s.timeline := congrArg StationView.timeline h
  rw [State.boundary, State.boundary, ht]

/-- The claim engine's turn leaves the in-transit block, and changes an entry to PROBE alone. -/
structure Serves (s t : State) : Prop where
  inTransit : t.inTransit = s.inTransit
  entry : ∀ k : SlotNo, t.map[k] = s.map[k] ∨ ∃ l i, t.map[k] = .probe l i

namespace Serves

theorem same {s t : State} (inTransit : t.inTransit = s.inTransit) (map : t.map = s.map) : Serves s t :=
  ⟨inTransit, fun k => .inl (by rw [map])⟩

theorem trans {s t u : State} (h : Serves s t) (k : Serves t u) : Serves s u where
  inTransit := k.inTransit.trans h.inTransit
  entry j := by
    rcases k.entry j with he | hp
    · rw [he]; exact h.entry j
    · exact .inr hp

theorem foldl {α : Type} {f : State → α → State} (h : ∀ s a, Serves s (f s a)) (as : List α) (s : State) :
    Serves s (as.foldl f s) := by
  induction as generalizing s with
  | nil => exact .same rfl rfl
  | cons a as ih => exact (h s a).trans (ih _)

end Serves

theorem State.serveLane_serves (s : State) (l : LaneNo) : Serves s (s.serveLane l) := by
  unfold State.serveLane
  split
  · split
    · rename_i i _ _ _ _ k _
      refine ⟨rfl, fun j => ?_⟩
      have entry : (s.drawUsed.grant l i k).map[j] = if k = j then .probe l i else s.map[j] := getElem_set_fin ..
      rw [entry]
      split
      · exact .inr ⟨l, i, rfl⟩
      · exact .inl rfl
    · exact .same rfl rfl
  all_goals exact .same rfl rfl

theorem State.limitDeferral_serves (s : State) (i : StreamNo) : Serves s (s.limitDeferral i) := by
  unfold State.limitDeferral
  split
  · exact .same rfl rfl
  · split
    · exact .same rfl rfl
    · rw [State.shortStream_eq]; exact .same rfl rfl

theorem State.serveClaims_serves (s : State) : Serves s s.serveClaims := by
  unfold State.serveClaims State.serveLanes State.limitDeferrals
  have joined : Serves s s.countBackoffs.joinQueue := .same rfl rfl
  refine Serves.trans ?_ (.foldl State.limitDeferral_serves _ _)
  split
  · exact joined.trans (.same rfl rfl)
  · exact (joined.trans (State.serveLane_serves _ 0)).trans (State.serveLane_serves _ 1)

theorem State.serveClaims_engine {s : State} (h : EngineLegal s) (hs : s.station = .active)
    (hb : s.boundary = some .slotPhaseStart) : EngineLegal s.serveClaims := by
  have view := s.serveClaims_stationView
  have station : s.serveClaims.station = .active := (congrArg StationView.station view).trans hs
  have serves := s.serveClaims_serves
  refine .between ?_ (mapLegal_iff.mpr fun k => ?_)
    (serves.inTransit.trans (h.transit_none fun k hk => nomatch hb.symm.trans hk)) fun k hk => ?_
  · rw [station]
    exact State.serveClaims_fits (by rw [← hs]; exact h.work)
  · have hk := mapLegal_iff.mp h.map k
    rw [station, MapEntry.fits_count (by decide : StationState.active ≠ .settle) _ (endsInSettle s k)]
    rcases serves.entry k with he | ⟨l, i, he⟩ <;> rw [he]
    · rw [← hs]; exact hk
    · rfl
  · cases hb.symm.trans ((State.boundary_of_stationView view).symm.trans hk)

theorem execSlotPhaseStart_engine {s t : State} (h : EngineLegal s) (he : execSlotPhaseStart s = .next t) :
    EngineLegal t := by
  cases he
  refine State.atEvent_engine h fun u _ hu hb => ?_
  have hb := State.boundary_eq hu hb
  have past (k : SlotNo) : pastSlot k (.slotBegin 0) = pastSlot k .slotPhaseStart :=
    decide_eq_false (Fin.not_lt_zero k)
  split
  · have hb' : s.serveClaims.boundary = some .slotPhaseStart :=
      (State.boundary_of_stationView s.serveClaims_stationView).trans hb
    exact (State.serveClaims_engine h ‹_› hb).pass (b' := .slotBegin 0) hb' nofun nofun (State.nextIs_view hb' rfl _)
      fun _ => past
  · exact h.pass (b' := .slotBegin 0) hb nofun nofun (State.nextIs_view hb rfl _) fun _ => past

end Sys2Proof.Machine
end

section
/-! PROOF. The outcomes of a station's own slot frames keep the laws of the working part. -/

namespace Sys2Proof.Machine

open Sys2Proof.Safety

/-! ## The outcome of a CLAIM (R92 to R95) -/

theorem State.laneOfSlot_some {s : State} {k : SlotNo} {l : LaneNo} {r : Lane} (h : s.laneOfSlot k = some (l, r)) :
    s.lanes[l] = some r := by
  unfold State.laneOfSlot at h
  split at h
  · rename_i q h0
    split at h
    · cases h; exact h0
    · split at h
      · rename_i p h1
        split at h
        · cases h; exact h1
        · cases h
      · cases h
  · split at h
    · rename_i p h1
      split at h
      · cases h; exact h1
      · cases h
    · cases h

theorem Stream.Fits.won {D : Nat} {r : Stream} (h : r.Fits D .active) (hs : r.state = .claiming)
    (ready : r.backoff = 0 ∧ r.deferral = 0) (room : r.held.length < r.wanted) {k : SlotNo} (fresh : k ∉ r.held) :
    (r.won k).Fits D .active := by
  have state : (r.won k).state = if r.held.length + 1 = r.wanted then .live else .claiming := by rw [Stream.won, hs]
  have length : (r.held ++ [k]).length = r.held.length + 1 := List.length_append
  have used : (r.won k).state = .live ∨ (r.won k).state = .claiming := by rw [state]; split <;> simp
  have unfailed : r.failure.isSome = true ↔ r.state = .failed := h.failureHeld
  exact
    { wantedRange := h.wantedRange
      heldOnce := by
        change (r.held ++ [k]).Nodup
        exact h.heldOnce.append (List.nodup_singleton k) fun j hj hk => fresh (List.mem_singleton.mp hk ▸ hj)
      heldRoom := length.trans_le room
      liveHolds := fun hl => by
        change (r.held ++ [k]).length = r.wanted
        rw [state] at hl
        split at hl
        · rw [length]; assumption
        · cases hl
      idleHolds := fun hi => by rcases used with hu | hu <;> rw [hu] at hi <;> exact hi.elim nofun nofun
      closingHolds := fun hc => by rw [hc] at used; exact used.elim nofun nofun
      attemptsRange := Nat.zero_lt_succ _
      backoffRange := h.backoffRange
      deferralRange := h.deferralRange
      claimFieldsClear := fun hn => by
        refine ⟨rfl, ready.1, ready.2, if_pos ?_⟩
        by_contra hw
        rw [state, if_neg hw] at hn
        exact hn rfl
      failureHeld := by
        refine iff_of_false (fun hf => ?_) fun hf => ?_
        · have := unfailed.mp hf
          rw [hs] at this
          cases this
        · rw [hf] at used; exact used.elim nofun nofun
      leavingCloses := nofun
      liveOnlyActive := fun hn => absurd rfl hn
      closingOnlyOnTimeline := fun hn => absurd rfl hn
      emptyWhenClosed := fun hi => by rcases used with hu | hu <;> rw [hu] at hi <;> exact hi.elim nofun nofun
      queueRoom := h.queueRoom }

theorem backoffRange_le (n : Nat) : backoffRange n ≤ 32 := Nat.pow_le_pow_right (by decide) (Nat.min_le_right n 5)

theorem backoffRange_pos (n : Nat) : 0 < backoffRange n := Nat.two_pow_pos _

/-- A stream that stays CLAIMING may count other attempts and wait another backoff. -/
theorem Stream.Fits.reclaim {D : Nat} {st : StationState} {r : Stream} (h : r.Fits D st) (hs : r.state = .claiming)
    {attempts backoff : Nat} (ha : attempts < Config.attemptLimit) (hb : backoff < 32) (posted : Bool) :
    ({ r with attempts := attempts, backoff := backoff, shortPosted := posted } : Stream).Fits D st :=
  { h with attemptsRange := ha, backoffRange := hb, claimFieldsClear := fun hn => absurd hs hn }

/-- The claim engine takes the outcome of a CLAIM. -/
theorem State.claimOutcome_fits {s : State} {st : StationState} (h : WorkFits deferBound st s.work) (k : SlotNo)
    (o : Outcome) : WorkFits deferBound st (s.claimOutcome k o).work := by
  cases hl : s.laneOfSlot k with
  | none => rw [State.claimOutcome_discarded hl]; exact h
  | some p =>
    obtain ⟨l, r⟩ := p
    have lane : s.lanes[l] = some r := State.laneOfSlot_some hl
    obtain rfl : st = .active := by
      by_contra hst
      exact nomatch ((h.onlyActive hst).2 l).symm.trans lane
    have own := h.stream r.stream
    obtain ⟨claiming, ready, room, clean⟩ := (own.laned l r lane rfl).1
    have hc : s.streams[r.stream].state = .claiming := claiming
    have fresh : r.slot ∉ s.streams[r.stream].held := fun hm => by
      have hmine := (own.heldMine r.slot).mp hm
      rw [h.lanes.lanesProbe l r lane] at hmine
      cases hmine
    have lost {q : Stream} (held : q.held = s.streams[r.stream].held) (fits : q.Fits Config.deferLimit .active)
        (same : q.tag = s.streams[r.stream].tag ∧ q.queue = s.streams[r.stream].queue)
        (state : q.state = .claiming ∨ q.state = .failed) := by
      refine h.endProbe lane (e := .held none 0) (q := q) (.inr ⟨rfl, held⟩) fits same.1 same.2 ?_ ?_ <;>
        rcases state with hq | hq <;> rw [hq] <;> exact nofun
    cases o with
    | clean =>
      rcases Nat.lt_or_eq_of_le (Nat.le_of_lt_succ clean) with hlt | heq
      · rw [State.claimOutcome_counts hl hlt]
        exact (h.countLane lane (r' := { r with cleanCount := r.cleanCount + 1 }) rfl rfl (Nat.succ_lt_succ hlt)).congr
          rfl rfl rfl rfl rfl
      · rw [State.claimOutcome_wins hl heq]
        have state : (s.streams[r.stream].won r.slot).state = .live ∨
            (s.streams[r.stream].won r.slot).state = .claiming := by
          simp only [Stream.won, hc]
          split <;> simp
        refine (h.endProbe lane (e := .mine r.stream 0 false) (q := s.streams[r.stream].won r.slot) (.inl ⟨rfl, rfl⟩)
          (own.record.won hc ready room fresh) rfl rfl ?_ ?_).congr rfl rfl rfl rfl rfl <;>
          rcases state with hq | hq <;> rw [hq] <;> exact nofun
    | collided =>
      rcases Nat.lt_or_eq_of_le (Nat.le_of_lt_succ own.record.attemptsRange) with hlt | heq
      · rw [State.claimOutcome_loses hl hlt]
        refine (lost (q := { s.streams[r.stream] with
          attempts := s.streams[r.stream].attempts + 1
          backoff := s.drawn (backoffRange (s.streams[r.stream].attempts + 1)) }) rfl ?_ ⟨rfl, rfl⟩ (.inl hc)).congr
          rfl rfl rfl rfl rfl
        exact own.record.reclaim hc (Nat.succ_lt_succ hlt)
          ((s.drawn_lt (backoffRange_pos _)).trans_le (backoffRange_le _)) _
      · rw [State.claimOutcome_tenth hl heq]
        by_cases held : s.streams[r.stream].held = []
        · rw [if_pos held]
          exact (lost (q := s.streams[r.stream].failed .contention) rfl
            (own.record.failed held nofun (Nat.zero_lt_succ _) .contention) ⟨rfl, rfl⟩ (.inr rfl)).congr
            rfl rfl rfl rfl rfl
        · rw [if_neg held]
          refine (lost (q := { s.streams[r.stream] with attempts := 0, backoff := s.drawn 32, shortPosted := true }) rfl
            ?_ ⟨rfl, rfl⟩ (.inl hc)).congr rfl rfl rfl rfl rfl
          exact own.record.reclaim hc (Nat.zero_lt_succ _) (s.drawn_lt (by decide)) true

/-! ## The outcome of the in-transit block (R112, R113) -/

section Transit

variable {s : State} {st : StationState}

theorem State.settleTransit_fits (h : WorkFits deferBound st s.work) : WorkFits deferBound st s.settleTransit.work := by
  cases hb : s.inTransit with
  | none => rw [State.settleTransit_none hb]; exact h
  | some b =>
    have carries := ((h.stream b.stream).transit b hb rfl).1
    cases hd : b.disposal with
    | freeBuffer => rw [State.settleTransit_frees hb hd]; exact h.noTransit _
    | returnToQueue =>
      rw [State.settleTransit_returns hb hd]
      obtain ⟨idle, closing⟩ := carries.returns hd
      exact h.requeue b.stream (blocks := b.block :: s.streams[b.stream].queue) (fun hs => (hs.elim idle closing).elim)
        carries.room (transit := none) nofun s.freeList

theorem State.settleTransit_none_left (s : State) : s.settleTransit.inTransit = none := by
  rw [State.settleTransit_eq]

theorem State.deliverTransit_fits (h : WorkFits deferBound st s.work) : WorkFits deferBound st s.deliverTransit.work := by
  cases hb : s.inTransit with
  | none =>
    have same : s.deliverTransit = s := by simp only [State.deliverTransit, hb]
    rw [same]
    exact h
  | some b =>
    rw [State.deliverTransit_eq hb]
    exact ((h.noTransit (s.freeList ++ [b.block.buffer])).alikeOne (i := b.stream) (D' := deferBound)
      (r := { s.streams[b.stream] with
        sequence := s.streams[b.stream].sequence + 1, blocksSent := bump s.streams[b.stream].blocksSent })
      ⟨rfl, rfl, rfl, rfl, rfl⟩ { (h.stream b.stream).record with } (fun _ _ => le_rfl) (.inl rfl) (.inl rfl))

theorem State.deliverTransit_none_left (s : State) : s.deliverTransit.inTransit = none := by
  cases hb : s.inTransit with
  | none => simp only [State.deliverTransit, hb]
  | some b => rw [State.deliverTransit_eq hb]

end Transit

/-! ## The conflicts of a MINE entry (R112 to R115) -/

/-- A CLOSING stream without a slot is IDLE (R115, R118). -/
def Stream.ended (r : Stream) : Stream := if r.state = .closing ∧ r.held = [] then { r with state := .idle } else r

theorem State.finishClosing_streams (s : State) (i : StreamNo) :
    (s.finishClosing i).work = { s.work with
      streams := s.streams.set i s.streams[i].ended, events := (s.finishClosing i).events } := by
  unfold State.finishClosing Stream.ended
  split
  · rfl
  · simp [State.work]

theorem Stream.ended_of_not_closing {r : Stream} (h : r.state ≠ .closing) : r.ended = r := if_neg fun hn => h hn.1

/-- The record of a stream that gave up a slot (R115, R118). -/
def Stream.without (r : Stream) (k : SlotNo) (lost : Half) : Stream :=
  { r with held := r.held.erase k, slotsLost := lost, state := r.state.afterRelease }

theorem Stream.without_of_closing {r : Stream} (h : r.state = .closing) (k : SlotNo) :
    r.without k r.slotsLost = { r with held := r.held.erase k } := by
  rw [Stream.without, h, StreamState.afterRelease, ← h]

theorem Stream.Fits.without {D : Nat} {st : StationState} {r : Stream} (h : r.Fits D st) {k : SlotNo} (hk : k ∈ r.held)
    (lost : Half) : (r.without k lost).ended.Fits D st := by
  have shorter : (r.held.erase k).length < r.wanted :=
    (List.length_erase_of_mem hk).trans_lt
      (Nat.lt_of_lt_of_le (Nat.sub_lt (List.length_pos_of_mem hk) Nat.one_pos) h.heldRoom)
  have holds : r.held ≠ [] := List.ne_nil_of_mem hk
  have base (hs : r.state = .claiming ∨ r.state = .live) (state : StreamState) (hc : state = .claiming) :
      ({ r with held := r.held.erase k, slotsLost := lost, state := state } : Stream).Fits D st := by
    subst hc
    exact { h with
      heldOnce := h.heldOnce.erase k
      heldRoom := shorter.le
      liveHolds := nofun
      idleHolds := fun hi => hi.elim nofun nofun
      closingHolds := nofun
      claimFieldsClear := fun hn => absurd rfl hn
      failureHeld := iff_of_false (fun hf => by rcases hs with hs | hs <;> cases hs.symm.trans (h.failureHeld.mp hf)) nofun
      leavingCloses := fun hl => by
        have ended := h.leavingCloses hl
        rcases hs with hs | hs <;> rw [hs] at ended <;> exact ended.elim nofun nofun
      liveOnlyActive := nofun
      closingOnlyOnTimeline := nofun
      emptyWhenClosed := fun hi => hi.elim nofun nofun }
  have closing (hs : r.state = .closing) (held : List SlotNo) (once : held.Nodup) (room : held.length ≤ r.wanted)
      (state : StreamState) (ends : state = if held = [] then .idle else .closing) :
      ({ r with held := held, slotsLost := lost, state := state } : Stream).Fits D st := by
    have either : state = .idle ∨ state = .closing := by rw [ends]; split <;> simp
    exact { h with
      heldOnce := once
      heldRoom := room
      liveHolds := fun hl => by subst hl; exact either.elim nofun nofun
      idleHolds := fun hi => by
        by_contra hh
        rw [if_neg hh] at ends
        subst ends
        exact hi.elim nofun nofun
      closingHolds := fun hc hh => by
        rw [if_pos hh] at ends
        exact nomatch ends.symm.trans hc
      claimFieldsClear := fun _ => h.claimFieldsClear (by rw [hs]; exact nofun)
      failureHeld := iff_of_false (fun hf => nomatch hs.symm.trans (h.failureHeld.mp hf)) fun hf => by
        subst hf
        exact either.elim nofun nofun
      leavingCloses := fun _ => either
      liveOnlyActive := fun _ hl => by subst hl; exact either.elim nofun nofun
      closingOnlyOnTimeline := fun ha hl => absurd hs (h.closingOnlyOnTimeline ha hl)
      emptyWhenClosed := fun _ => h.emptyWhenClosed (.inr hs) }
  cases hs : r.state with
  | idle => exact absurd (h.idleHolds (.inl hs)) holds
  | failed => exact absurd (h.idleHolds (.inr hs)) holds
  | claiming =>
    have he : (r.without k lost).ended = { r with held := r.held.erase k, slotsLost := lost, state := .claiming } := by
      simp [Stream.without, Stream.ended, hs, StreamState.afterRelease]
    rw [he]
    exact base (.inl hs) _ rfl
  | live =>
    have he : (r.without k lost).ended = { r with held := r.held.erase k, slotsLost := lost, state := .claiming } := by
      simp [Stream.without, Stream.ended, hs, StreamState.afterRelease]
    rw [he]
    exact base (.inr hs) _ rfl
  | closing =>
    have he : (r.without k lost).ended = { r with
        held := r.held.erase k, slotsLost := lost, state := if r.held.erase k = [] then .idle else .closing } := by
      by_cases hh : r.held.erase k = [] <;> simp [Stream.without, Stream.ended, hs, StreamState.afterRelease, hh]
    rw [he]
    exact closing hs _ (h.heldOnce.erase k) shorter.le _ rfl

theorem Stream.ended_fields (r : Stream) : r.ended.held = r.held ∧ r.ended.tag = r.tag ∧ r.ended.wanted = r.wanted ∧
    r.ended.backoff = r.backoff ∧ r.ended.deferral = r.deferral := by
  unfold Stream.ended; split <;> exact ⟨rfl, rfl, rfl, rfl, rfl⟩

/-- A stream gives up a MINE slot and ends if it was CLOSING with no other (R115, R118). -/
theorem WorkFits.lose {D : StreamNo → Nat} {st : StationState} {w : Work} (h : WorkFits D st w)
    (transit : w.inTransit = none) {k : SlotNo} {i : StreamNo} {c : Nat} {f : Bool} (hk : w.map[k] = .mine i c f)
    {e : MapEntry} (he : e.owned = false) (lost : Half) :
    WorkFits D st { w with
      map := w.map.set k e, streams := w.streams.set i (w.streams[i].without k lost).ended } := by
  have mem : k ∈ w.streams[i].held := ((h.stream i).heldMine k).mpr ((MapEntry.isMineOf_iff _ _).mpr ⟨c, f, hk⟩)
  obtain ⟨held, tag, wanted, backoff, deferral⟩ := (w.streams[i].without k lost).ended_fields
  have state : (w.streams[i].without k lost).state = w.streams[i].state.afterRelease := rfl
  refine h.giveUp transit hk he held ((h.stream i).record.without mem lost) (fun hs => ?_) (fun hh => ?_) (fun hn hs => ?_)
    ⟨tag, wanted, backoff, deferral⟩
  · rw [Stream.ended_of_not_closing (by rw [state, hs]; exact nofun), state, hs]
    rfl
  · rw [held] at hh
    rw [Stream.ended, if_neg fun hn => hh hn.2, state]
    cases w.streams[i].state <;> rfl
  · rw [Stream.ended_of_not_closing (by rw [state, hs]; exact nofun), state, hs] at hn
    exact hn rfl

section Conflicts

variable {s : State} {st : StationState} {k : SlotNo}

theorem State.clearConflict_fits (h : WorkFits deferBound st s.work) : WorkFits deferBound st (s.clearConflict k).work := by
  unfold State.clearConflict
  split
  · rename_i i c f hk
    exact h.markEntry hk
  all_goals exact h

theorem State.releaseSlot_fits (h : WorkFits deferBound st s.work) (transit : s.inTransit = none) {i : StreamNo} {c : Nat}
    {f : Bool} (hk : s.map[k] = .mine i c f) : WorkFits deferBound st (s.releaseSlot k i).work := by
  rw [State.releaseSlot, State.finishClosing_streams]
  refine (h.lose transit hk (e := .held none 0) rfl (bump s.streams[i].slotsLost)).congr rfl rfl rfl ?_ rfl
  simp [State.work, State.post, State.modStream, State.setEntry, Stream.without]

theorem State.raiseConflict_fits (h : WorkFits deferBound st s.work) (transit : s.inTransit = none) :
    WorkFits deferBound st (s.raiseConflict k).work := by
  unfold State.raiseConflict
  split
  · rename_i i c f hk
    split
    · exact h.markEntry hk
    · exact State.releaseSlot_fits h transit hk
  all_goals exact h

/-- A FINAL has been sent in a slot that is final-pending (R118). -/
theorem State.finalSent_fits (h : WorkFits deferBound st s.work) (transit : s.inTransit = none)
    (final : s.map[k].isMine = true → finalPending s.map[k] = true) : WorkFits deferBound st (s.finalSent k).work := by
  unfold State.finalSent
  split
  · rename_i i c f hk
    have hf : f = true := by
      rw [hk] at final
      exact final rfl
    have closing : s.streams[i].state = .closing :=
      eq_of_beq (((h.stream i).final k c f hk).symm.trans hf)
    have lost := h.lose transit hk (e := .cooling Config.cool) rfl s.streams[i].slotsLost
    rw [show s.work.streams[i].without k s.streams[i].slotsLost = _ from Stream.without_of_closing closing k] at lost
    rw [State.finishClosing_streams]
    refine lost.congr rfl rfl rfl ?_ rfl
    simp [State.work, State.modStream, State.setEntry]
  all_goals exact h

end Conflicts

end Sys2Proof.Machine
end

section
/-! PROOF. The begin and the end of a slot occurrence keep the laws of the map, the claim engine and the streams. -/

namespace Sys2Proof.Machine

open Sys2Proof.Safety

/-! ## The begin of an occurrence (R91, R110) -/

/-- An occurrence opens with what is handed over in it (R6). -/
theorem EngineLegal.opens {s u : State} {k : SlotNo} (h : EngineLegal s) (hb : s.boundary = some (.slotBegin k))
    {f : Option Frame} {v : Vector Stream 8} {carried : Option InTransit}
    (hu : u.engineView = { s.engineView with frame := f, streams := v, inTransit := carried })
    (work : WorkFits deferBound s.station { s.work with streams := v, inTransit := carried })
    (transit : ∀ b ∈ u.inTransit, (s.station = .active ∨ s.station = .leaving) ∧ b.slot = k ∧ sendsMark u .data = true)
    (final : sendsMark u .final = true → s.map[k].isMine = true → finalPending s.map[k] = true) :
    EngineLegal (u.nextIs (.slotEnd k)) := by
  obtain ⟨station, settle, boundary, -, map, claimQueue, lanes, streams, inTransit⟩ := EngineView.mk.inj hu
  have due : (u.nextIs (.slotEnd k)).boundary = some (.slotEnd k) := State.nextIs_boundary (boundary.trans hb) _
  refine ⟨?_, mapLegal_iff.mpr fun j => ?_, ?_, fun b hb => ?_, fun b hb => ?_, fun t ht j hj hm hk => ?_⟩
  · change WorkFits deferBound u.station _
    rw [station]
    exact work.congr map claimQueue lanes streams inTransit
  · have ends : endsInSettle (u.nextIs (.slotEnd k)) j = endsInSettle s j := by
      rw [endsInSettle_eq, endsInSettle_eq, due, hb]
      change Config.settleCycles - u.settle + _ = _
      rw [settle]
      rfl
    change u.map[j].fits u.station _ = true
    rw [ends, map, station]
    exact mapLegal_iff.mp h.map j
  · intro b hb
    change u.station = .active ∨ u.station = .leaving
    rw [station]
    exact (transit b hb).1
  · rw [(transit b hb).2.1]; exact due
  · exact (transit b hb).2.2
  · have hjk : j = k := by
      have hd : some t.nextBoundary = some (.slotEnd k) := by
        rw [← due, State.boundary, Option.mem_def.mp ht, Option.map_some]
      exact (Boundary.slotEnd.inj (hj.symm.trans (Option.some.inj hd)))
    subst hjk
    change u.map[j].isMine = true at hk
    change finalPending u.map[j] = true
    rw [map] at hk ⊢
    exact final hm hk

theorem State.sendOwned_engine {s : State} {k : SlotNo} (h : EngineLegal s) (hb : s.boundary = some (.slotBegin k))
    (bus : s.station = .active ∨ s.station = .leaving) {i : StreamNo} {c : Nat} {f : Bool} (hk : s.map[k] = .mine i c f) :
    EngineLegal ((s.sendOwned k i f).nextIs (.slotEnd k)) := by
  have quiet := h.transit_none fun j hj => nomatch hb.symm.trans hj
  have mine : s.map[k].isMineOf i = true := (MapEntry.isMineOf_iff _ _).mpr ⟨c, f, hk⟩
  have own := h.stream i
  have fills : EngineLegal ((s.sendFill i).nextIs (.slotEnd k)) := by
    refine h.opens hb (u := s.sendFill i) rfl
      (h.work.alikeOne (i := i) (r := { s.streams[i] with underruns := bump s.streams[i].underruns })
        ⟨rfl, rfl, rfl, rfl, rfl⟩ { own.record with } (fun _ _ => le_rfl) (.inl rfl) (.inl rfl))
      (fun b hb => nomatch quiet.symm.trans hb) fun hm => nomatch hm
  unfold State.sendOwned
  split
  · rename_i hf
    refine h.opens hb (u := s.sendFinal i) rfl h.work (fun b hb => nomatch quiet.symm.trans hb) fun _ _ => ?_
    rw [hk]
    exact hf
  · split
    · rename_i block rest hq
      have room : rest.length < Config.txBlocks := by
        have := own.record.queueRoom
        change s.streams[i].queue.length ≤ _ at this
        rw [hq] at this
        exact this
      have used : s.streams[i].state ≠ .idle ∧ s.streams[i].state ≠ .closing := by
        have filled : s.streams[i].queue ≠ [] := by rw [hq]; exact List.cons_ne_nil _ _
        exact ⟨fun hs => filled (own.record.emptyWhenClosed (.inl hs)),
          fun hs => filled (own.record.emptyWhenClosed (.inr hs))⟩
      have tail : s.streams[i].queue.tail = rest := by rw [hq]; rfl
      have work := h.work.requeue i (blocks := s.streams[i].queue.tail)
        (transit := some { stream := i, slot := k, block := block, disposal := .returnToQueue })
        (fun hs => (hs.elim used.1 used.2).elim) (tail ▸ room.le)
        (fun b hb => by cases hb; exact .inr ⟨rfl, mine, tail ▸ room, fun _ => used⟩) s.freeList
      exact h.opens hb (u := s.sendData i k block) rfl (work.congr rfl rfl rfl rfl rfl)
        (fun b hb => by cases hb; exact ⟨bus, rfl, rfl⟩) fun hm => nomatch hm
    · exact fills

theorem State.beginSlot_engine {s : State} {k : SlotNo} (h : EngineLegal s) (hb : s.boundary = some (.slotBegin k)) :
    EngineLegal ((s.beginSlot k).nextIs (.slotEnd k)) := by
  have quiet := h.transit_none fun j hj => nomatch hb.symm.trans hj
  have silent (hm : s.map[k].isMine = false) : EngineLegal (s.nextIs (.slotEnd k)) :=
    h.opens hb (u := s) rfl h.work (fun b hb => nomatch quiet.symm.trans hb) fun _ hmine => nomatch hm.symm.trans hmine
  unfold State.beginSlot
  split
  · rename_i l i hk
    split
    · exact h.opens hb (u := s.handOver (s.claimFrame i)) rfl h.work (fun b hb => nomatch quiet.symm.trans hb)
        fun hm => nomatch hm
    · exact silent (by rw [hk]; rfl)
  · rename_i i c f hk
    have bus := MapEntry.fits_mine.mp (hk ▸ mapLegal_iff.mp h.map k)
    rw [if_pos bus.2]
    exact State.sendOwned_engine h hb bus.2 hk
  all_goals
    rename_i hk
    exact silent (by rw [hk]; rfl)

theorem execSlotOccurrenceBegin_engine {k : SlotNo} {s t : State} (h : EngineLegal s)
    (he : execSlotOccurrenceBegin k s = .next t) : EngineLegal t := by
  cases he
  exact State.atEvent_engine h fun u _ hu hb =>
    State.beginSlot_engine (h.view (t := s.openDivision) rfl) (State.boundary_eq hu hb)

end Sys2Proof.Machine
end

section
/-! PROOF. The end of a slot occurrence keeps the laws of the map, the claim engine and the streams. -/

namespace Sys2Proof.Machine

open Sys2Proof.Safety

/-! ## What follows the end of an occurrence (R2) -/

theorem Boundary.afterSlot_not_slotEnd (k j : SlotNo) : Boundary.afterSlot k ≠ .slotEnd j := by
  unfold Boundary.afterSlot; split <;> exact nofun

theorem pastSlot_afterSlot (k j : SlotNo) : pastSlot j (Boundary.afterSlot k) = decide (j ≤ k) := by
  unfold Boundary.afterSlot
  split
  · exact decide_eq_decide.mpr (by rw [Fin.lt_def, Fin.le_def]; exact Nat.lt_succ_iff)
  · refine (decide_eq_true ?_).symm
    rw [Fin.le_def]
    omega

/-- The end of an occurrence counts for its own slot alone (R62). -/
theorem endsInSettle_afterSlot {s t : State} {k : SlotNo} (settle : t.settle = s.settle)
    (hb : s.boundary = some (.slotEnd k)) (hb' : t.boundary = some (Boundary.afterSlot k)) (j : SlotNo) :
    endsInSettle t j = if j = k then endsInSettle s j + 1 else endsInSettle s j := by
  rw [endsInSettle_eq, endsInSettle_eq, settle, hb, hb', Option.map_some, Option.map_some, pastSlot_afterSlot]
  have hs : pastSlot j (.slotEnd k) = decide (j < k) := rfl
  rw [hs]
  by_cases hj : j = k
  · subst hj; simp
  · have hle : j ≤ k ↔ j < k := ⟨fun h => lt_of_le_of_ne h hj, le_of_lt⟩
    simp [hle, hj]

/-! ## An occurrence that was heard (R8, R10, R61 to R67) -/

/-- An entry that takes one more occurrence fits one more end (R62). -/
theorem MapEntry.fits_observe {st : StationState} {n : Nat} {e : MapEntry} (on : st.onTimeline = true)
    (h : e.fits st n = true) (c : ObsClass SlotFrame) : (e.observe c).fits st (n + 1) = true := by
  have held (holder : Option (Address × Byte)) : (MapEntry.held holder 0).fits st (n + 1) = true :=
    MapEntry.fits_fresh on holder
  have damage : e.observeDamage.fits st (n + 1) = true := by
    cases e with
    | probe l i => exact h
    | mine i c f => exact h
    | _ => exact held _
  have frame (f : SlotFrame) : (MapEntry.observeFrame f).fits st (n + 1) = true := by
    unfold MapEntry.observeFrame
    split
    · exact held _
    · exact held _
    · exact held _
    · exact MapEntry.fits_cooling.mpr ⟨by decide, on⟩
  have silence : e.observeSilent.fits st (n + 1) = true := by
    cases e with
    | unknown c =>
      obtain ⟨rfl, -, rfl⟩ := (MapEntry.fits_unknown_on on).mp h
      change (if c + 1 < Config.lease then MapEntry.unknown (c + 1) else .free).fits _ _ = true
      split
      · rename_i hc
        exact (MapEntry.fits_unknown_on rfl).mpr ⟨rfl, hc, rfl⟩
      · exact on
    | held holder c =>
      change (if c + 1 < Config.lease then MapEntry.held holder (c + 1) else .free).fits _ _ = true
      split
      · rename_i hc
        exact MapEntry.fits_held.mpr ⟨hc, on⟩
      · exact on
    | cooling c =>
      have hc4 := (MapEntry.fits_cooling.mp h).1.2
      change (if 1 < c then MapEntry.cooling (c - 1) else .free).fits _ _ = true
      split
      · rename_i hc
        exact MapEntry.fits_cooling.mpr ⟨⟨Nat.le_sub_one_of_lt hc, (Nat.sub_le _ _).trans hc4⟩, on⟩
      · exact on
    | free => exact h
    | probe l i => exact h
    | mine i c f => exact h
  unfold MapEntry.observe
  split
  · rename_i ho
    cases e with
    | probe l i => exact h
    | mine i c f => exact h
    | _ => cases ho
  · cases c with
    | silent => exact silence
    | clean f => exact frame f
    | collided => exact held _
    | damaged => exact damage

theorem MapEntry.observe_of_owned {e : MapEntry} (h : e.owned = true) (c : ObsClass SlotFrame) : e.observe c = e :=
  if_pos h

theorem MapEntry.observeSilent_owned (e : MapEntry) (h : e.owned = false) : e.observeSilent.owned = false := by
  cases e with
  | probe l i => cases h
  | mine i c f => cases h
  | free => rfl
  | _ => simp only [MapEntry.observeSilent]; split <;> rfl

theorem MapEntry.observeDamage_owned (e : MapEntry) (h : e.owned = false) : e.observeDamage.owned = false := by
  cases e with
  | probe l i => cases h
  | mine i c f => cases h
  | _ => rfl

theorem MapEntry.observeFrame_owned (f : SlotFrame) : (MapEntry.observeFrame f).owned = false := by
  unfold MapEntry.observeFrame; split <;> rfl

theorem MapEntry.observe_owned (c : ObsClass SlotFrame) (e : MapEntry) :
    e.observe c = e ∨ ((e.observe c).owned = false ∧ e.owned = false) := by
  cases ho : e.owned with
  | true => exact .inl (MapEntry.observe_of_owned ho c)
  | false =>
    refine .inr ⟨?_, rfl⟩
    rw [MapEntry.observe.eq_def, ho, if_neg Bool.false_ne_true]
    cases c with
    | silent => exact e.observeSilent_owned ho
    | clean f => exact MapEntry.observeFrame_owned f
    | collided => rfl
    | damaged => exact e.observeDamage_owned ho

theorem State.observeSlot_view (s : State) (k : SlotNo) (c : ObsClass SlotFrame) :
    (s.observeSlot k c).engineView = { s.engineView with map := s.map.set k (s.map[k].observe c) } := by
  unfold State.observeSlot
  split
  · rename_i ho
    have same : s.map.set k (s.map[k].observe c) = s.map := by rw [MapEntry.observe_of_owned ho]; simp
    rw [same]
    rfl
  · cases c with
    | clean f =>
      have hv : ((s.checkAddress f.owner).setEntry k (s.map[k].observe (.clean f))).engineView =
          { (s.checkAddress f.owner).engineView with
            map := (s.checkAddress f.owner).map.set k (s.map[k].observe (.clean f)) } := rfl
      rw [hv, State.checkAddress_view, show (s.checkAddress f.owner).map = s.map from
        congrArg EngineView.map (s.checkAddress_view f.owner)]
    | _ => rfl

theorem State.storeOrDrop_view (s : State) (e : EntryNo) (k : SlotNo) (cycle : Half) (f : SlotFrame) :
    (s.storeOrDrop e k cycle f).engineView = s.engineView := by
  unfold State.storeOrDrop
  split
  · split <;> rfl
  · rfl

theorem State.receive_view (s : State) (k : SlotNo) (cycle : Half) (f : SlotFrame) :
    (s.receive k cycle f).engineView = s.engineView := by
  unfold State.receive
  split
  · rfl
  · rename_i e _
    split
    · rfl
    · rfl
    · refine Eq.trans ?_ (s.storeOrDrop_view e k cycle f)
      unfold State.hitData State.activateSub
      split <;> rfl
    · unfold State.hitFinal
      split <;> rfl

theorem State.receiveClass_view (s : State) (k : SlotNo) (cycle : Half) (c : ObsClass SlotFrame) :
    (s.receiveClass k cycle c).engineView = s.engineView := by
  unfold State.receiveClass
  split
  · exact s.receive_view k cycle _
  all_goals rfl

theorem State.recordClass_view (s : State) (k : SlotNo) (c : ObsClass SlotFrame) :
    (s.recordClass k c).engineView = s.engineView := by
  unfold State.recordClass
  split <;> rfl

theorem State.endHeardSlot_engine {s : State} {t : Timeline} {k : SlotNo} (h : EngineLegal s)
    (on : s.station.onTimeline = true) (hb : s.boundary = some (.slotEnd k)) (hx : s.tx = none) :
    EngineLegal (s.endHeardSlot t k) := by
  have quiet : s.inTransit = none := Option.eq_none_iff_forall_not_mem.mpr fun b hb =>
    Bool.false_ne_true ((sendsMark_none hx .data).symm.trans (h.transit.sent b hb))
  have entry (j : SlotNo) (c : ObsClass SlotFrame) :
      (s.map.set k (s.map[k].observe c))[j] = if k = j then s.map[k].observe c else s.map[j] := getElem_set_fin ..
  dsimp only [State.endHeardSlot]
  generalize s.slotClass t k = c
  have heard : (((s.closeDivision.recordClass k c).observeSlot k c).receiveClass k t.cycle c).engineView =
      { s.engineView with frame := none, map := s.map.set k (s.map[k].observe c) } := by
    have hr := s.closeDivision.recordClass_view k c
    have hm : (s.closeDivision.recordClass k c).map = s.map := congrArg EngineView.map hr
    rw [State.receiveClass_view, State.observeSlot_view, hr, hm]
    rfl
  generalize ((s.closeDivision.recordClass k c).observeSlot k c).receiveClass k t.cycle c = u at heard
  obtain ⟨station, settle, boundary, -, map, claimQueue, lanes, streams, inTransit⟩ := EngineView.mk.inj heard
  have hb' : (u.nextIs (Boundary.afterSlot k)).boundary = some (Boundary.afterSlot k) :=
    State.nextIs_boundary (boundary.trans hb) _
  refine .between ?_ (mapLegal_iff.mpr fun j => ?_) (inTransit.trans quiet) fun j hj => ?_
  · change WorkFits deferBound u.station _
    rw [station]
    refine (h.work.entries (map := s.map.set k (s.map[k].observe c)) fun j => ?_).congr map claimQueue lanes streams
      inTransit
    rw [entry]
    split
    · rename_i hkj
      subst hkj
      exact MapEntry.observe_owned c _
    · exact .inl rfl
  · have hj := mapLegal_iff.mp h.map j
    rw [endsInSettle_afterSlot (s := s) (t := u.nextIs (Boundary.afterSlot k)) settle hb hb']
    change u.map[j].fits u.station _ = true
    rw [map, station]
    refine (congrArg (fun e : MapEntry => e.fits s.station _) (entry j c)).trans ?_
    by_cases hjk : j = k
    · subst hjk
      rw [if_pos rfl, if_pos rfl]
      exact MapEntry.fits_observe on hj c
    · rw [if_neg hjk, if_neg (Ne.symm hjk)]
      exact hj
  · rw [hb'] at hj
    exact Boundary.afterSlot_not_slotEnd k j (Option.some.inj hj)

/-! ## An occurrence that carried the station's own frame (R10, R12) -/

/-- The judgement of an own slot frame: no block stays in transit, and each entry that changes fits ACTIVE and LEAVING. -/
structure Judges (s t : State) : Prop where
  inTransit : s.inTransit = none → t.inTransit = none
  entry : ∀ j : SlotNo, t.map[j] = s.map[j] ∨
    ∀ st : StationState, st = .active ∨ st = .leaving → ∀ n, t.map[j].fits st n = true

namespace Judges

theorem same {s t : State} (inTransit : t.inTransit = s.inTransit) (map : t.map = s.map) : Judges s t :=
  ⟨inTransit.trans, fun j => .inl (by rw [map])⟩

theorem set {s t : State} {k : SlotNo} {e : MapEntry} (inTransit : t.inTransit = s.inTransit)
    (map : t.map = s.map.set k e)
    (fits : ∀ st : StationState, st = .active ∨ st = .leaving → ∀ n, e.fits st n = true) : Judges s t := by
  refine ⟨inTransit.trans, fun j => ?_⟩
  have entry : (s.map.set k e)[j] = if k = j then e else s.map[j] := getElem_set_fin ..
  rw [map, entry]
  split
  · exact .inr fits
  · exact .inl rfl

theorem trans {s t u : State} (h : Judges s t) (k : Judges t u) : Judges s u where
  inTransit hs := k.inTransit (h.inTransit hs)
  entry j := by
    rcases k.entry j with he | hf
    · rw [he]; exact h.entry j
    · exact .inr hf

end Judges

theorem onTimeline_of_bus {st : StationState} (h : st = .active ∨ st = .leaving) : st.onTimeline = true := by
  rcases h with rfl | rfl <;> rfl

theorem fits_held_bus (st : StationState) (h : st = .active ∨ st = .leaving) (n : Nat) :
    (MapEntry.held none 0).fits st n = true := MapEntry.fits_fresh (onTimeline_of_bus h) none

theorem State.claimOutcome_judges {s : State} {st : StationState} (h : WorkFits deferBound st s.work) (k : SlotNo)
    (o : Outcome) : Judges s (s.claimOutcome k o) := by
  cases hl : s.laneOfSlot k with
  | none => rw [State.claimOutcome_discarded hl]; exact .same rfl rfl
  | some p =>
    obtain ⟨l, r⟩ := p
    have lane : s.lanes[l] = some r := State.laneOfSlot_some hl
    have own := h.stream r.stream
    have clean := (own.laned l r lane rfl).1.cleanRange
    cases o with
    | clean =>
      rcases Nat.lt_or_eq_of_le (Nat.le_of_lt_succ clean) with hlt | heq
      · rw [State.claimOutcome_counts hl hlt]; exact .same rfl rfl
      · rw [State.claimOutcome_wins hl heq]
        exact .set rfl rfl fun st hs n => MapEntry.fits_mine.mpr ⟨by decide, hs⟩
    | collided =>
      rcases Nat.lt_or_eq_of_le (Nat.le_of_lt_succ own.record.attemptsRange) with hlt | heq
      · rw [State.claimOutcome_loses hl hlt]; exact .set rfl rfl fits_held_bus
      · rw [State.claimOutcome_tenth hl heq]; exact .set rfl rfl fits_held_bus

theorem State.finishClosing_judges (s : State) (i : StreamNo) : Judges s (s.finishClosing i) := by
  unfold State.finishClosing
  split <;> exact .same rfl rfl

theorem State.clearConflict_judges (s : State) (k : SlotNo) : Judges s (s.clearConflict k) := by
  unfold State.clearConflict
  split
  · exact .set rfl rfl fun st hs n => MapEntry.fits_mine.mpr ⟨by decide, hs⟩
  all_goals exact .same rfl rfl

theorem State.raiseConflict_judges (s : State) (k : SlotNo) : Judges s (s.raiseConflict k) := by
  unfold State.raiseConflict
  split
  · rename_i i c f _
    split
    · rename_i hc
      exact .set rfl rfl fun st hs n => MapEntry.fits_mine.mpr ⟨hc, hs⟩
    · refine Judges.trans ?_ (State.finishClosing_judges _ i)
      exact .set rfl rfl fits_held_bus
  all_goals exact .same rfl rfl

theorem State.finalSent_judges (s : State) (k : SlotNo) : Judges s (s.finalSent k) := by
  unfold State.finalSent
  split
  · rename_i i c f _
    refine Judges.trans ?_ (State.finishClosing_judges _ i)
    refine .set (e := .cooling Config.cool) rfl rfl fun st hs n => ?_
    exact MapEntry.fits_cooling.mpr ⟨by decide, onTimeline_of_bus hs⟩
  all_goals exact .same rfl rfl

theorem State.settleTransit_map (s : State) : s.settleTransit.map = s.map := by rw [State.settleTransit_eq]

theorem State.deliverTransit_map (s : State) : s.deliverTransit.map = s.map := by
  cases hb : s.inTransit with
  | none => simp only [State.deliverTransit, hb]
  | some b => rw [State.deliverTransit_eq hb]

/-- The outcome of an own slot frame goes to the unit that sent it (R10). -/
theorem State.takeOutcome_slot (s : State) (k : SlotNo) (f : SlotFrame) (o : Outcome) :
    s.takeOutcome k (.slot f) o = match f.mark with
      | .claim => s.claimOutcome k o
      | .data => s.dataOutcome k o
      | .fill => s.fillOutcome k o
      | .final => s.finalSent k := by
  obtain ⟨mark, _, _, _, _⟩ := f
  cases mark <;> rfl

/-- What is known of an own slot frame when its outcome is taken: only DATA has a block in transit, and FINAL was sent in a
slot that is final-pending (R106, R110). -/
structure Sent (s : State) (k : SlotNo) (f : Frame) : Prop where
  data : (∀ g, f = .slot g → g.mark ≠ .data) → s.inTransit = none
  final : ∀ g, f = .slot g → g.mark = .final → s.map[k].isMine = true → finalPending s.map[k] = true

theorem State.takeOutcome_takes {s : State} {st : StationState} {k : SlotNo} {f : Frame}
    (h : WorkFits deferBound st s.work) (sent : Sent s k f) (o : Outcome) :
    WorkFits deferBound st (s.takeOutcome k f o).work ∧ (s.takeOutcome k f o).inTransit = none ∧
      ∀ j : SlotNo, (s.takeOutcome k f o).map[j] = s.map[j] ∨
        ∀ st : StationState, st = .active ∨ st = .leaving → ∀ n, (s.takeOutcome k f o).map[j].fits st n = true := by
  have judged {t : State} (work : WorkFits deferBound st t.work) (quiet : s.inTransit = none) (hj : Judges s t) :
      WorkFits deferBound st t.work ∧ t.inTransit = none ∧ ∀ j : SlotNo, t.map[j] = s.map[j] ∨
        ∀ st : StationState, st = .active ∨ st = .leaving → ∀ n, t.map[j].fits st n = true :=
    ⟨work, hj.inTransit quiet, hj.entry⟩
  cases f with
  | beacon b => exact judged h (sent.data nofun) (.same rfl rfl)
  | slot f =>
    rw [State.takeOutcome_slot]
    have quiet (hm : f.mark ≠ .data) : s.inTransit = none := sent.data fun g hg => by cases hg; exact hm
    cases hm : f.mark with
    | claim =>
      exact judged (State.claimOutcome_fits h k o) (quiet (by rw [hm]; exact nofun)) (State.claimOutcome_judges h k o)
    | fill =>
      have quiet := quiet (by rw [hm]; exact nofun)
      cases o with
      | clean => exact judged (State.clearConflict_fits h) quiet (s.clearConflict_judges k)
      | collided => exact judged (State.raiseConflict_fits h quiet) quiet (s.raiseConflict_judges k)
    | final =>
      have quiet := quiet (by rw [hm]; exact nofun)
      exact judged (State.finalSent_fits h quiet (sent.final f rfl hm)) quiet (s.finalSent_judges k)
    | data =>
      cases o with
      | clean =>
        have hj := s.deliverTransit.clearConflict_judges k
        refine ⟨State.clearConflict_fits (State.deliverTransit_fits h), hj.inTransit s.deliverTransit_none_left,
          fun j => ?_⟩
        rw [← s.deliverTransit_map]
        exact hj.entry j
      | collided =>
        have hj := s.settleTransit.raiseConflict_judges k
        refine ⟨State.raiseConflict_fits (State.settleTransit_fits h) s.settleTransit_none_left,
          hj.inTransit s.settleTransit_none_left, fun j => ?_⟩
        rw [← s.settleTransit_map]
        exact hj.entry j

theorem State.endOwnSlot_engine {s : State} {t : Timeline} {k : SlotNo} {x : Transmission} (h : EngineLegal s)
    (bus : s.station = .active ∨ s.station = .leaving) (ht : s.timeline = some t) (hb : t.nextBoundary = .slotEnd k)
    (hx : s.tx = some x) : EngineLegal (s.endOwnSlot t k x) := by
  have view (o : Outcome) : (s.closeDivision.recordOutcome k o).engineView = { s.engineView with frame := none } := by
    cases o <;> rfl
  have sent : Sent s k x.frame := by
    refine ⟨fun hd => ?_, fun g hg hm hmine => h.transit.finalUnderWay t ht k hb ?_ hmine⟩
    · refine Option.eq_none_iff_forall_not_mem.mpr fun b hb => ?_
      have hs := h.transit.sent b hb
      rw [sendsMark, hx] at hs
      obtain ⟨f, _⟩ := x
      cases f with
      | beacon _ => cases hs
      | slot g => exact hd g rfl (eq_of_beq hs)
    · obtain ⟨f, _⟩ := x
      cases hg
      rw [sendsMark, hx]
      exact beq_iff_eq.mpr hm
  dsimp only [State.endOwnSlot]
  generalize s.outcome x (t.slotOpens k) (t.slotCloses k) = o
  have hv := view o
  generalize s.closeDivision.recordOutcome k o = u at hv
  obtain ⟨station, -, boundary, -, map, claimQueue, lanes, streams, inTransit⟩ := EngineView.mk.inj hv
  have work : WorkFits deferBound s.station u.work := h.work.congr map claimQueue lanes streams inTransit
  have sent' : Sent u k x.frame := ⟨fun hd => inTransit.trans (sent.data hd), by rw [map]; exact sent.final⟩
  obtain ⟨work', quiet, entry⟩ := State.takeOutcome_takes work sent' o
  have same := State.takeOutcome_stationView u k x.frame o
  generalize u.takeOutcome k x.frame o = v at work' quiet entry same
  have station' : v.station = s.station := (congrArg StationView.station same).trans station
  have hb' : (v.nextIs (Boundary.afterSlot k)).boundary = some (Boundary.afterSlot k) :=
    State.nextIs_boundary ((State.boundary_of_stationView same).trans (boundary.trans (State.boundary_eq ht hb))) _
  have judged : EngineLegal (v.nextIs (Boundary.afterSlot k)) := by
    refine .between ?_ (mapLegal_iff.mpr fun j => ?_) quiet fun j hj =>
      Boundary.afterSlot_not_slotEnd k j (Option.some.inj (hb'.symm.trans hj))
    · change WorkFits deferBound v.station v.work
      rw [station']
      exact work'
    · change v.map[j].fits v.station _ = true
      rw [station']
      rcases entry j with he | hf
      · rw [he, map, MapEntry.fits_count (by rcases bus with hs | hs <;> rw [hs] <;> exact nofun) _ (endsInSettle s j)]
        exact mapLegal_iff.mp h.map j
      · exact hf _ bus _
  split
  · exact State.checkLeft_engine judged
  · exact judged

theorem execSlotOccurrenceEnd_engine {k : SlotNo} {s t : State} (h : EngineLegal s) (station : StationLegal s)
    (he : execSlotOccurrenceEnd k s = .next t) : EngineLegal t := by
  cases he
  refine State.atEvent_engine h fun u on hu hb => ?_
  split
  · exact h
  · split
    · rename_i x hx
      have bus : s.station = .active ∨ s.station = .leaving := by
        by_contra hn
        rw [not_or] at hn
        exact nomatch hx.symm.trans (station.sendsWhereItMay hn.1 hn.2)
      exact State.endOwnSlot_engine h bus hu hb hx
    · exact State.endHeardSlot_engine h on (State.boundary_eq hu hb) ‹_›

end Sys2Proof.Machine
end

section
/-! PROOF. The cycle end, joining and founding a timeline, and the reports of the line keep the laws of the map, the claim
engine and the streams. -/

namespace Sys2Proof.Machine

open Sys2Proof.Safety

/-! ## The cycle end (R29 to R32) -/

/-- At a cycle end a slot has ended once in the cycle; a cycle start is due next, and the settle count falls (R29). -/
theorem endsInSettle_cycleEnd {s t : State} (hb : s.boundary = some .cycleEnd) (hb' : t.boundary = some .cycleStart)
    (settle : t.settle = s.settle - 1) (range : 1 < s.settle ∧ s.settle ≤ Config.settleCycles) (k : SlotNo) :
    endsInSettle t k = endsInSettle s k := by
  rw [endsInSettle_eq, endsInSettle_eq, settle, hb, hb', Option.map_some, Option.map_some]
  have h8 : s.settle ≤ 8 := range.2
  have h1 := range.1
  simp only [pastSlot, Config.settleCycles]
  simp
  omega

theorem State.endCycle_engine {s : State} (h : EngineLegal s) (station : StationLegal s) (subs : SubsLegal s)
    (on : s.station.onTimeline = true) {t : Timeline} (ht : s.timeline = some t) (hb : t.nextBoundary = .cycleEnd) :
    EngineLegal (s.nextIs .cycleStart).endCycle := by
  have due := State.boundary_eq ht hb
  have quiet := h.transit_none fun k hk => nomatch due.symm.trans hk
  have starts : (s.nextIs .cycleStart).boundary = some .cycleStart := State.nextIs_boundary due _
  have moved : (s.nextIs .cycleStart).timeline = nextDue t .cycleStart := by rw [State.nextIs_eq ht]
  have notEnd (k : SlotNo) (u : State) (hu : u.boundary = some .cycleStart) : u.boundary ≠ some (.slotEnd k) :=
    fun hk => nomatch hu.symm.trans hk
  by_cases counts : s.beaconHeard = true ∨ s.holdover < 7
  · by_cases ends : s.station = .settle ∧ s.settle = 1
    · obtain ⟨hs, h1⟩ := ends
      obtain ⟨es, -, he⟩ := State.endCycle_settles (s := s.nextIs .cycleStart) hs h1 counts
      rw [he]
      refine .between ?_ (mapLegal_iff.mpr fun k => ?_) quiet fun k => notEnd k _ starts
      · exact (h.work.enter (st' := .active) (by rw [hs]; exact nofun) (by rw [hs]; exact nofun) nofun).congr
          rfl rfl rfl rfl rfl
      · have hk := mapLegal_iff.mp h.map k
        have hn : endsInSettle s k = 8 := by rw [endsInSettle_eq, h1, due]; rfl
        rw [hs, hn] at hk
        change s.map[k].fits .active _ = true
        cases he : s.map[k] with
        | unknown c =>
          rw [he] at hk
          obtain ⟨-, hc, rfl⟩ := (MapEntry.fits_unknown_on rfl).mp hk
          exact absurd hc (by decide)
        | probe l i => rfl
        | mine i c f =>
          rw [he] at hk
          exact (MapEntry.fits_mine.mp hk).2.elim nofun nofun
        | _ => rw [he] at hk; exact hk
    · have falls (hs : s.station = .settle) : 1 < s.settle :=
        Nat.lt_of_le_of_ne (station.settleRange hs).1 fun h1 => ends ⟨hs, h1.symm⟩
      rw [State.endCycle_counts (s := s.nextIs .cycleStart) on falls counts]
      refine .between (h.work.congr rfl rfl rfl rfl rfl) (mapLegal_iff.mpr fun k => ?_) quiet fun k => notEnd k _ starts
      have hk := mapLegal_iff.mp h.map k
      by_cases hs : s.station = .settle
      · refine Eq.trans (congrArg (fun n => s.map[k].fits s.station n) ?_) hk
        refine endsInSettle_cycleEnd due ?_ ?_ ⟨falls hs, (station.settleRange hs).2⟩ k
        · exact starts
        · exact if_pos hs
      · exact (MapEntry.fits_count hs _ _ _).trans hk
  · obtain ⟨hb, hh⟩ := not_or.mp counts
    have h7 : s.holdover = 7 := Nat.le_antisymm (Nat.le_of_lt_succ station.holdoverRange) (Nat.not_lt.mp hh)
    obtain ⟨sub, events, he, -, -⟩ := State.endCycle_loses (s := s.nextIs .cycleStart)
      (subsLegal_of_keeps subs fun e => .refl _) moved on (Bool.eq_false_iff.mpr hb) h7
    rw [he]
    have work : WorkFits deferBound s.station { s.nextIs .cycleStart with subs := sub, events := events }.work :=
      h.work.congr rfl rfl rfl rfl rfl
    split
    · exact State.loseSyncLeaving_engine work quiet
    · exact State.loseSync_engine work moved quiet

theorem execCycleEnd_engine {s t : State} (h : EngineLegal s) (station : StationLegal s) (subs : SubsLegal s)
    (he : execCycleEnd s = .next t) : EngineLegal t := by
  cases he
  refine State.atEvent_engine h fun u on hu hb => ?_
  exact (State.endCycle_engine h station subs on hu hb).view rfl

/-! ## Joining and founding a timeline (R27, R28) -/

/-- Off a timeline every entry is UNKNOWN (R59). -/
theorem MapEntry.unknown_of_fits {st : StationState} {n : Nat} {e : MapEntry} (off : st.onTimeline = false)
    (h : e.fits st n = true) : e = .unknown 0 := by
  cases e with
  | unknown c => rw [(fits_unknown_off off).mp h]
  | free => exact nomatch off.symm.trans (fits_free.mp h)
  | held holder c => exact nomatch off.symm.trans (fits_held.mp h).2
  | cooling c => exact nomatch off.symm.trans (fits_cooling.mp h).2
  | probe l i => rw [fits_probe.mp h] at off; cases off
  | mine i c f => rw [onTimeline_of_bus (fits_mine.mp h).2] at off; cases off

theorem State.adopt_engine {s : State} (h : EngineLegal s) (hl : s.station = .listen) (b : BeaconFrame)
    (firstBit lastBit : Time) : EngineLegal (s.adopt b firstBit lastBit) := by
  have entry (k : SlotNo) : (s.adopt b firstBit lastBit).map[k] = if b.occupancy[k] then .held none 0 else .unknown 0 := by
    have hk := MapEntry.unknown_of_fits (by rw [hl]; rfl) (mapLegal_iff.mp h.map k)
    rw [State.adopt_eq]
    refine (Vector.getElem_ofFn k.isLt).trans ?_
    change (if b.occupancy[k] then s.map[k].reported else s.map[k]) = _
    rw [hk]
    rfl
  have unowned (k : SlotNo) : s.map[k].owned = false :=
    h.unowned (by rw [hl]; exact nofun) (by rw [hl]; exact nofun) k
  have quiet : s.inTransit = none := Option.eq_none_iff_forall_not_mem.mpr fun d hd => by
    rcases h.transit.onTimeline d hd with hs | hs <;> cases hl.symm.trans hs
  have station : (s.adopt b firstBit lastBit).station = .settle := by rw [State.adopt_eq]
  have settle : (s.adopt b firstBit lastBit).settle = Config.settleCycles := by rw [State.adopt_eq]
  have timeline : (s.adopt b firstBit lastBit).timeline = some (b.timeline firstBit) := by rw [State.adopt_eq]
  refine .between ?_ (mapLegal_iff.mpr fun k => ?_) (by rw [State.adopt_eq]; exact quiet) (joined_due timeline)
  · have joined := (h.work.enter (st' := .settle) (by rw [hl]; exact nofun) (by rw [hl]; exact nofun) nofun).entries
      (map := (s.adopt b firstBit lastBit).map) fun k => .inr ⟨by rw [entry]; split <;> rfl, unowned k⟩
    rw [station]
    refine joined.congr rfl ?_ ?_ ?_ ?_
    · change (s.adopt b firstBit lastBit).claimQueue = _; rw [State.adopt_eq]; rfl
    · change (s.adopt b firstBit lastBit).lanes = _; rw [State.adopt_eq]; rfl
    · change (s.adopt b firstBit lastBit).streams = _; rw [State.adopt_eq]; rfl
    · change (s.adopt b firstBit lastBit).inTransit = _; rw [State.adopt_eq]; rfl
  · rw [entry, station, joined_ends settle timeline]
    split <;> rfl

theorem State.found_engine {s : State} (h : EngineLegal s) (hl : s.station = .listen)
    (beacon : s.config.beaconEligible = true) (time : Time) : EngineLegal (s.found time) := by
  have unowned (k : SlotNo) : s.map[k].owned = false :=
    h.unowned (by rw [hl]; exact nofun) (by rw [hl]; exact nofun) k
  have entry (k : SlotNo) : (s.found time).map[k] = .free := by
    rw [State.found_eq beacon]
    exact (Vector.getElem_ofFn k.isLt).trans (if_neg (by rw [unowned k]; exact Bool.false_ne_true))
  have quiet : s.inTransit = none := Option.eq_none_iff_forall_not_mem.mpr fun d hd => by
    rcases h.transit.onTimeline d hd with hs | hs <;> cases hl.symm.trans hs
  have station : (s.found time).station = .active := by rw [State.found_eq beacon]
  refine .between ?_ (mapLegal_iff.mpr fun k => ?_) (by rw [State.found_eq beacon]; exact quiet) fun k hk => ?_
  · have founded := (h.work.enter (st' := .active) (by rw [hl]; exact nofun) (by rw [hl]; exact nofun) nofun).entries
      (map := (s.found time).map) fun k => .inr ⟨by rw [entry]; rfl, unowned k⟩
    rw [station]
    refine founded.congr rfl ?_ ?_ ?_ ?_
    · change (s.found time).claimQueue = _; rw [State.found_eq beacon]; rfl
    · change (s.found time).lanes = _; rw [State.found_eq beacon]; rfl
    · change (s.found time).streams = _; rw [State.found_eq beacon]; rfl
    · change (s.found time).inTransit = _; rw [State.found_eq beacon]; rfl
  · rw [entry, station]
    rfl
  · rw [State.boundary, State.found_eq beacon] at hk
    cases hk

/-! ## The reports of the line (R7, R54) -/

theorem State.sortBeacon_engine {s : State} (h : EngineLegal s) (t : Timeline) (b : BeaconFrame) (firstBit : Time) :
    EngineLegal (s.sortBeacon t b firstBit) := by
  unfold State.sortBeacon
  split
  · exact h
  · split
    · split
      · exact State.mergeLeaving_engine h.work b
      · exact State.mergeOnto_engine h.work b firstBit
    · exact h.view (State.checkAddress_view _ _)

theorem State.takeReport_engine {s : State} (h : EngineLegal s) (r : FrameReport) : EngineLegal (s.takeReport r) := by
  have gathered : EngineLegal (if s.station.onTimeline then s.gatherFrame r else s) := by
    split
    · exact h.view rfl
    · exact h
  unfold State.takeReport State.handBeacon
  generalize (if s.station.onTimeline then s.gatherFrame r else s) = u at gathered
  split
  · rename_i b _
    split
    · exact State.adopt_engine gathered ‹_› b _ _
    · split
      · exact State.sortBeacon_engine gathered _ b _
      · exact gathered
  · exact gathered
  · exact gathered

theorem execCarrierStart_engine {time : Time} {s t : State} (h : EngineLegal s) (he : execCarrierStart time s = .next t) :
    EngineLegal t := by
  cases he
  split
  · exact h
  · split <;> exact h.view rfl

theorem execCarrierEnd_engine {time : Time} {s t : State} (h : EngineLegal s) (he : execCarrierEnd time s = .next t) :
    EngineLegal t := by
  cases he
  split
  · exact h
  · split
    · refine h.view ((State.startTimer_view _).trans ((State.hears_view _ time).trans rfl))
    · split <;> exact h.view rfl

theorem execFrameReport_engine {pattern : Half} {bytes : List Byte} {firstBit lastBit : Time} {s t : State}
    (h : EngineLegal s) (he : execFrameReport pattern bytes firstBit lastBit s = .next t) : EngineLegal t := by
  cases he
  refine State.unlessHeld_engine h ?_
  have heard := h.view (s.hears_view lastBit)
  split
  · split
    · exact heard
    · exact State.takeReport_engine heard _
  · exact h

theorem execJamReport_engine {time : Time} {s t : State} (h : EngineLegal s) (he : execJamReport time s = .next t) :
    EngineLegal t := by
  cases he
  refine State.unlessHeld_engine h ?_
  split
  · exact h.view rfl
  · exact h.view (s.hears_view time)

theorem execLeadIn_engine {s t : State} (h : EngineLegal s) (he : execLeadIn s = .next t) : EngineLegal t := by
  cases he
  refine State.unlessHeld_engine h ?_
  split
  · rename_i f hx
    refine h.view ?_
    rw [State.engineView, State.engineView, hx]
    rfl
  all_goals exact h

theorem execReadBackMismatch_engine {s t : State} (h : EngineLegal s) (he : execReadBackMismatch s = .next t) :
    EngineLegal t := by
  cases he
  refine State.unlessHeld_engine h ?_
  split
  · rename_i f hx
    refine h.view ?_
    rw [State.engineView, State.engineView, hx]
    rfl
  all_goals exact h

theorem execListenTimerExpiry_engine {time : Time} {s t : State} (h : EngineLegal s) (station : StationLegal s)
    (he : execListenTimerExpiry time s = .next t) : EngineLegal t := by
  cases he
  refine State.unlessHeld_engine h ?_
  split
  · rename_i hl
    split
    · rename_i founder
      have set := station.configSet (by rw [hl.1]; exact nofun)
      exact State.found_engine h hl.1 (set.2.2 founder) time
    · exact h.view s.startTimer_view
  · exact h

end Sys2Proof.Machine
end

section
/-! PROOF. The requests keep the laws of the map, the claim engine and the streams. -/

namespace Sys2Proof.Machine

open Sys2Proof.Safety

/-! ## Streams that close (R35, R116, R117) -/

theorem MapEntry.fits_closedAll {st : StationState} {n : Nat} {e : MapEntry} (h : e.fits st n = true)
    (done : List StreamNo) : (e.closedAll done).fits st n = true := by
  cases e with
  | probe l i =>
    have hs := MapEntry.fits_probe.mp h
    change (if i ∈ done then MapEntry.held none 0 else .probe l i).fits st n = true
    split
    · exact MapEntry.fits_fresh (by rw [hs]; rfl) none
    · exact h
  | mine i c f => exact MapEntry.fits_mine.mpr (MapEntry.fits_mine.mp h)
  | _ => exact h

theorem InTransit.condemnedAll_stream (done : List StreamNo) (b : InTransit) :
    (b.condemnedAll done).stream = b.stream ∧ (b.condemnedAll done).slot = b.slot := by
  unfold InTransit.condemnedAll; split <;> exact ⟨rfl, rfl⟩

section StopAll

variable {s : State} {st : StationState} {done : List StreamNo}

theorem State.stopAll_stopped {i : StreamNo} (h : i ∈ done) : (s.stopAll done).streams[i] = s.streams[i].stopped :=
  (Vector.getElem_ofFn i.isLt).trans (if_pos h)

theorem Stream.stopped_state (r : Stream) : r.stopped.state = if r.held = [] then .idle else .closing := rfl

/-- A stream that a close has not reached. -/
theorem State.stopAll_untouched {i : StreamNo} (h : i ∉ done) : Untouched s.work (s.stopAll done) i where
  record := State.stopAll_stream h
  entries k := by
    rw [State.stopAll_entry]
    change s.map[k].closedAll done = s.map[k] ∨ _
    cases hk : s.map[k] with
    | mine j c f =>
      by_cases hj : j = i
      · subst hj
        left
        simp [MapEntry.closedAll, h]
      · exact .inr ⟨beq_eq_false_iff_ne.mpr hj, by
          change s.map[k].isMineOf i = false
          rw [hk]; exact beq_eq_false_iff_ne.mpr hj⟩
    | probe l j =>
      refine .inr ⟨?_, by change s.map[k].isMineOf i = false; rw [hk]; rfl⟩
      rw [MapEntry.closedAll_isMineOf]
      rfl
    | _ => exact .inl rfl
  lanes l r hr hi := ⟨r, (State.mem_stopAll_lane.mp hr).1, hi, id⟩
  queue hq := (List.mem_filter.mp hq).1
  transit b hb hi := by
    obtain ⟨d, hd, rfl⟩ := Option.map_eq_some_iff.mp hb
    obtain ⟨stream, slot⟩ := d.condemnedAll_stream done
    refine ⟨d, hd, stream.symm.trans hi, slot.symm, fun hr => ?_⟩
    have kept : d.condemnedAll done = d := if_neg (by rw [← stream, hi]; exact h)
    rw [kept] at hr
    exact hr

/-- A stream that a close has reached. -/
theorem State.stopAll_reached (h : WorkFits deferBound st s.work) {i : StreamNo} (hi : i ∈ done)
    (bus : s.streams[i].held ≠ [] → st = .active ∨ st = .leaving) :
    StreamFits Config.deferLimit st (s.stopAll done) i := by
  have own := h.stream i
  have record := State.stopAll_stopped (s := s) hi
  have mine (k : SlotNo) : (s.stopAll done).map[k].isMineOf i = s.map[k].isMineOf i := by
    rw [State.stopAll_entry, MapEntry.closedAll_isMineOf]
  refine ⟨?_, fun k => ?_, fun k c f hk => ?_, fun l r hr hri => ?_, fun hq => ?_, fun b hb hbi => ?_⟩
  · rw [record]
    exact own.record.stopped (Nat.zero_lt_succ _) (Classical.or_iff_not_imp_left.mpr bus)
  · rw [record, mine]
    exact own.heldMine k
  · have held : s.streams[i].held ≠ [] := List.ne_nil_of_mem
      ((own.heldMine k).mpr ((mine k).symm.trans ((MapEntry.isMineOf_iff _ _).mpr ⟨c, f, hk⟩)))
    rw [record, Stream.stopped_state, if_neg held]
    rw [State.stopAll_entry] at hk
    cases he : s.map[k] with
    | mine j d g =>
      rw [he] at hk
      cases hk
      simp [hi]
    | probe l j =>
      rw [he, MapEntry.closedAll] at hk
      split at hk <;> cases hk
    | _ => rw [he] at hk; cases hk
  · exact absurd (hri ▸ hi) (State.mem_stopAll_lane.mp hr).2
  · exact absurd hi (of_decide_eq_true (List.mem_filter.mp hq).2)
  · obtain ⟨d, hd, rfl⟩ := Option.map_eq_some_iff.mp hb
    obtain ⟨stream, slot⟩ := d.condemnedAll_stream done
    have hdi : d.stream = i := stream.symm.trans hbi
    have freed : d.condemnedAll done = { d with disposal := .freeBuffer } := if_pos (hdi ▸ hi)
    rw [record, freed, mine]
    exact ⟨⟨Nat.zero_lt_succ _, nofun⟩, (own.transit d hd hdi).2⟩

theorem LaneLaws.stopAll (h : LaneLaws s.map s.lanes) : LaneLaws (s.stopAll done).map (s.stopAll done).lanes where
  lanesProbe l r hr := by
    obtain ⟨hr, hn⟩ := State.mem_stopAll_lane.mp hr
    exact (State.stopAll_entry s done r.slot).trans (MapEntry.closedAll_probe.mpr ⟨h.lanesProbe l r hr, hn⟩)
  probesLaned k l i hk := by
    obtain ⟨hk, hn⟩ := MapEntry.closedAll_probe.mp ((State.stopAll_entry s done k).symm.trans hk)
    obtain ⟨r, hr, hs, rfl⟩ := h.probesLaned k l i hk
    exact ⟨r, State.mem_stopAll_lane.mpr ⟨hr, hn⟩, hs, rfl⟩
  lanesDiffer l m hlm r hr q hq :=
    h.lanesDiffer l m hlm r (State.mem_stopAll_lane.mp hr).1 q (State.mem_stopAll_lane.mp hq).1

/-- Closes keep the laws of the working part. -/
theorem State.stopAll_fits (h : WorkFits deferBound st s.work)
    (bus : ∀ i : StreamNo, s.streams[i].held ≠ [] → st = .active ∨ st = .leaving) :
    WorkFits deferBound st (s.stopAll done) where
  stream i := by
    by_cases hi : i ∈ done
    · exact State.stopAll_reached h hi (bus i)
    · exact (h.stream i).frame (State.stopAll_untouched hi)
  lanes := h.lanes.stopAll
  queueOnce := h.queueOnce.filter _
  onlyActive hne := by
    obtain ⟨queue, lanes⟩ := h.onlyActive hne
    refine ⟨?_, fun l => Option.eq_none_iff_forall_not_mem.mpr fun r hr => ?_⟩
    · change s.claimQueue.filter _ = []
      rw [show s.claimQueue = [] from queue]
      rfl
    · exact nomatch (lanes l).symm.trans (State.mem_stopAll_lane.mp hr).1
  tagsDiffer := by
    refine TagsDiffer.of_used h.tagsDiffer fun i => ?_
    by_cases hi : i ∈ done
    · rw [State.stopAll_stopped hi]
      refine ⟨rfl, fun hs hidle => hs ?_⟩
      exact if_pos ((h.stream i).record.idleHolds (.inl hidle))
    · rw [State.stopAll_stream hi]
      exact ⟨rfl, id⟩

/-- Where each entry and the in-transit block is as these closes leave it. -/
theorem EngineLegal.closedAll (h : EngineLegal s) {w : Work} (work : WorkFits deferBound s.station w)
    (entry : ∀ k : SlotNo, w.map[k] = s.map[k].closedAll done)
    (transit : w.inTransit = s.inTransit.map (InTransit.condemnedAll done)) : EngineLegal (s.withWork w) := by
  have carried (b : InTransit) (hb : b ∈ w.inTransit) : ∃ d ∈ s.inTransit, b.slot = d.slot := by
    rw [transit] at hb
    obtain ⟨d, hd, rfl⟩ := Option.map_eq_some_iff.mp hb
    exact ⟨d, hd, (d.condemnedAll_stream done).2⟩
  refine ⟨work, mapLegal_iff.mpr fun k => ?_, fun b hb => ?_, fun b hb => ?_, fun b hb => ?_,
    fun t ht k hk hm hmine => ?_⟩
  · change w.map[k].fits _ _ = true
    rw [entry]
    exact MapEntry.fits_closedAll (mapLegal_iff.mp h.map k) done
  · obtain ⟨d, hd, -⟩ := carried b hb
    exact h.transit.onTimeline d hd
  · obtain ⟨d, hd, slot⟩ := carried b hb
    rw [slot]
    exact h.transit.due d hd
  · obtain ⟨d, hd, -⟩ := carried b hb
    exact h.transit.sent d hd
  · have final := h.transit.finalUnderWay t ht k hk hm
    change w.map[k].isMine = true at hmine
    change finalPending w.map[k] = true
    rw [entry] at hmine ⊢
    cases he : s.map[k] with
    | mine j c f =>
      rw [he] at final
      rw [MapEntry.closedAll, finalPending_mine, show f = true from final rfl]
      rfl
    | probe l j =>
      rw [he, MapEntry.closedAll] at hmine
      split at hmine <;> cases hmine
    | _ => rw [he] at hmine; cases hmine

theorem State.stopAll_engine (h : EngineLegal s) (done : List StreamNo) : EngineLegal (s.withWork (s.stopAll done)) := by
  refine h.closedAll (State.stopAll_fits h.work fun i hh => ?_) (s.stopAll_entry done) rfl
  obtain ⟨k, hk⟩ := List.exists_mem_of_ne_nil _ hh
  obtain ⟨c, f, he⟩ := (MapEntry.isMineOf_iff _ _).mp (((h.stream i).heldMine k).mp hk)
  have fits := mapLegal_iff.mp h.map k
  rw [show s.map[k] = _ from he] at fits
  exact (MapEntry.fits_mine.mp fits).2

end StopAll

/-! ## STOP (R34, R35) -/

/-- A station whose streams have all stopped may leave. -/
theorem EngineLegal.leaves {s t : State} (h : EngineLegal s) (hs : s.station = .active)
    (hv : t.engineView = { s.engineView with station := .leaving })
    (ended : ∀ i : StreamNo, s.streams[i].state = .idle ∨ s.streams[i].state = .closing) (queue : s.claimQueue = [])
    (lanes : ∀ l : LaneNo, s.lanes[l] = none) : EngineLegal t := by
  suffices EngineLegal { s with station := .leaving } from this.view hv
  refine ⟨⟨fun i => ?_, h.work.lanes, h.work.queueOnce, fun _ => ⟨queue, lanes⟩, h.work.tagsDiffer⟩,
    mapLegal_iff.mpr fun k => ?_, fun _ _ => .inr rfl, h.transit.due, h.transit.sent, h.transit.finalUnderWay⟩
  · have own := h.stream i
    refine { own with record := { own.record with
      leavingCloses := fun _ => ended i
      liveOnlyActive := fun _ hl => (ended i).elim (fun he => nomatch he.symm.trans hl) fun he => nomatch he.symm.trans hl
      closingOnlyOnTimeline := fun _ hn => absurd rfl hn } }
  · have fits := mapLegal_iff.mp h.map k
    rw [hs] at fits
    change s.map[k].fits .leaving _ = true
    cases he : s.map[k] with
    | unknown c =>
      rw [he] at fits
      exact nomatch ((MapEntry.fits_unknown_on rfl).mp fits).1
    | probe l i =>
      obtain ⟨r, hr, -, -⟩ := h.work.lanes.probesLaned k l i he
      exact nomatch (lanes l).symm.trans hr
    | mine i c f =>
      rw [he] at fits
      exact MapEntry.fits_mine.mpr ⟨(MapEntry.fits_mine.mp fits).1, .inr rfl⟩
    | _ => rw [he] at fits; exact fits

theorem Stream.stopped_ended (r : Stream) : r.stopped.state = .idle ∨ r.stopped.state = .closing := by
  rw [Stream.stopped_state]; split <;> simp

theorem State.stopped_view (s : State) :
    s.stopped.engineView = { (s.withWork (s.stopAll allStreams)).engineView with station := .leaving } := by
  have same : (s.enter .leaving .stop).stopAll allStreams =
      { s.stopAll allStreams with events := ((s.enter .leaving .stop).stopAll allStreams).events } := rfl
  rw [State.stopped, same]
  generalize s.stopAll allStreams = w
  rfl

theorem State.stopActive_engine {s : State} (L : Legal s) (hs : s.station = .active) : EngineLegal s.stopActive := by
  have stopped : EngineLegal s.stopped :=
    (State.stopAll_engine (.of_legal L) allStreams).leaves ((s.withWork_station _).trans hs) s.stopped_view
      (fun i => by rw [State.withWork_streams, State.stopAll_every_stream]; exact s.streams[i].stopped_ended)
      s.stopAll_every_queue s.stopAll_every_lane
  rw [State.stopActive_eq L]
  split
  · exact stopped
  · exact State.checkLeft_engine stopped

theorem State.arriveReady_engine {s : State} (L : Legal s) (off : s.station ≠ .active ∧ s.station ≠ .leaving)
    (cause : Cause) : EngineLegal (s.arriveReady cause) := by
  have h := EngineLegal.of_legal L
  have transit : s.inTransit = none := Option.eq_none_iff_forall_not_mem.mpr fun b hb =>
    (h.transit.onTimeline b hb).elim off.1 off.2
  rw [State.arriveReady_eq]
  refine .swept rfl rfl no_entry rfl no_lane transit (fun i => ⟨?_, held_nil_of_station L off i⟩) h.work.tagsDiffer
  have record := (h.stream i).record
  exact record.enter nofun (record.liveOnlyActive off.1) (record.closingOnlyOnTimeline off.1 off.2)

theorem State.stopRequest_engine {s : State} (L : Legal s) : EngineLegal s.stopRequest.2 := by
  have h := EngineLegal.of_legal L
  have early (off : s.station ≠ .active ∧ s.station ≠ .leaving) : EngineLegal s.stopEarly := by
    rw [State.stopEarly_eq L off]
    exact State.stopAll_engine (State.arriveReady_engine L off .stop) allStreams
  unfold State.stopRequest
  split
  · exact h
  · exact h
  · rename_i hs
    rw [State.accept_state]
    exact early (by rw [hs]; decide)
  · rename_i hs
    rw [State.accept_state]
    exact early (by rw [hs]; decide)
  · rw [State.accept_state]
    exact State.stopActive_engine L ‹_›
  · exact h

/-! ## CONFIGURE and START (R22, R24) -/

/-- A station that stays off the timeline. -/
theorem EngineLegal.stays_off {s t : State} (h : EngineLegal s) (station : StationLegal s)
    (off : s.station.onTimeline = false) (off' : t.station.onTimeline = false)
    (hv : t.engineView = { s.engineView with station := t.station }) : EngineLegal t := by
  have bus (st : StationState) (ho : st.onTimeline = false) : st ≠ .active ∧ st ≠ .leaving :=
    ⟨fun h => (by rw [h] at ho; cases ho), fun h => (by rw [h] at ho; cases ho)⟩
  have untimed : s.boundary = none := by
    have ht := station.timelinePresent
    rw [off, Option.isSome_eq_false_iff, Option.isNone_iff_eq_none] at ht
    rw [State.boundary, ht]
    rfl
  obtain ⟨-, settle, boundary, -, map, claimQueue, lanes, streams, inTransit⟩ := EngineView.mk.inj hv
  refine .between ?_ (mapLegal_iff.mpr fun k => ?_) ?_ fun k hk => nomatch (boundary.trans untimed).symm.trans hk
  · exact (h.work.enter (bus _ off).1 (bus _ off).2 (bus _ off').2).congr map claimQueue lanes streams inTransit
  · rw [map]
    change s.map[k].fits _ _ = true
    rw [MapEntry.unknown_of_fits off (mapLegal_iff.mp h.map k)]
    exact (MapEntry.fits_unknown_off off').mpr rfl
  · exact inTransit.trans (h.transit_none fun k hk => nomatch untimed.symm.trans hk)

theorem State.configure_engine {s : State} (L : Legal s) (address : Byte) (seed : Half) (f b : Bool) :
    EngineLegal (State.configure address seed f b s).2 := by
  have h := EngineLegal.of_legal L
  unfold State.configure
  split
  · rename_i hs
    split
    · exact h
    · exact h.stays_off L.station (by rw [hs]; rfl) rfl rfl
  · exact h

theorem State.switchOnReceiver_view (s : State) : s.switchOnReceiver.engineView = s.engineView := by
  unfold State.switchOnReceiver; split <;> rfl

theorem State.startRequest_engine {s : State} (L : Legal s) : EngineLegal s.startRequest.2 := by
  have h := EngineLegal.of_legal L
  unfold State.startRequest
  split
  · rename_i hs
    refine h.stays_off L.station (by rw [hs]; rfl) rfl ?_
    change { s.switchOnReceiver.engineView with station := .listen } = _
    rw [s.switchOnReceiver_view]
    rfl
  · exact h

/-! ## OPEN_TX, CLOSE_TX and PUSH (R107, R108, R116) -/

theorem StreamState.inUse_iff {x : StreamState} : x.inUse = true ↔ x ≠ .idle := by cases x <;> simp [StreamState.inUse]

theorem State.tagTaken_false {s : State} {i : StreamNo} {tag : Byte} (h : s.tagTaken i tag = false) (j : StreamNo)
    (hj : j ≠ i) (hs : s.streams[j].state ≠ .idle) : tag ≠ s.streams[j].tag := by
  rintro rfl
  refine List.any_eq_false.mp h j (mem_allStreams j) ?_
  rw [Bool.and_eq_true, Bool.and_eq_true, bne_iff_ne, beq_iff_eq]
  exact ⟨⟨hj, StreamState.inUse_iff.mpr hs⟩, rfl⟩

theorem Stream.opened_fits {st : StationState} (leaving : st ≠ .leaving) (tag : Byte) {wanted : Nat}
    (range : 1 ≤ wanted ∧ wanted ≤ 4) : (Stream.opened tag wanted).Fits Config.deferLimit st where
  wantedRange := range
  heldOnce := List.nodup_nil
  heldRoom := Nat.zero_le _
  liveHolds := nofun
  idleHolds _ := rfl
  closingHolds := nofun
  attemptsRange := Nat.zero_lt_succ _
  backoffRange := Nat.zero_lt_succ _
  deferralRange := Nat.zero_lt_succ _
  claimFieldsClear hn := absurd rfl hn
  failureHeld := iff_of_false nofun nofun
  leavingCloses hl := absurd hl leaving
  liveOnlyActive := nofun
  closingOnlyOnTimeline := nofun
  emptyWhenClosed hs := hs.elim nofun nofun
  queueRoom := Nat.zero_le _

/-- An IDLE stream has no place in the map, the claim engine or the in-transit block, so that it may open (R107). -/
theorem WorkFits.openStream {st : StationState} {w : Work} (h : WorkFits deferBound st w) {i : StreamNo}
    (idle : w.streams[i].state = .idle) {r : Stream} (fits : r.Fits Config.deferLimit st) (held : r.held = [])
    (tags : ∀ j, j ≠ i → w.streams[j].state ≠ .idle → r.tag ≠ w.streams[j].tag) :
    WorkFits deferBound st { w with streams := w.streams.set i r } := by
  have own := h.stream i
  have get (j : StreamNo) : (w.streams.set i r)[j] = if i = j then r else w.streams[j] := getElem_set_fin ..
  have hq := (get i).trans (if_pos rfl)
  have noMine (k : SlotNo) : ¬ w.map[k].isMineOf i = true := by
    rw [← own.heldMine, own.record.idleHolds (.inl idle)]
    exact List.not_mem_nil
  refine h.one i ?_ (fun j hj => ⟨?_, le_rfl⟩) h.lanes h.queueOnce h.onlyActive fun _ j hj hs => ?_
  · refine ⟨?_, fun k => ?_, fun k c f hk => ?_, fun l q hl hi => ?_, fun hi => ?_, fun b hb hi => ?_⟩
    · rw [hq]; exact fits
    · rw [hq, held]; exact iff_of_false List.not_mem_nil (noMine k)
    · exact absurd ((MapEntry.isMineOf_iff _ _).mpr ⟨c, f, hk⟩) (noMine k)
    · exact nomatch idle.symm.trans (own.laned l q hl hi).1.claiming
    · exact nomatch idle.symm.trans (own.queued hi).claiming
    · exact absurd (own.transit b hb hi).2 (noMine _)
  · exact ⟨(get j).trans (if_neg (Ne.symm hj)), fun _ => .inl rfl, fun l p hp hi => ⟨p, hp, hi, id⟩, id,
      fun b hb hi => ⟨b, hb, hi, rfl, id⟩⟩
  · rw [hq]; exact tags j hj hs

/-- A change of the records alone keeps the laws that are not about them. -/
theorem EngineLegal.restream {s t : State} (h : EngineLegal s) {v : Vector Stream 8}
    (hv : t.engineView = { s.engineView with streams := v })
    (work : WorkFits deferBound s.station { s.work with streams := v }) : EngineLegal t := by
  suffices EngineLegal { s with streams := v } from this.view hv
  exact ⟨work, h.map, h.transit.onTimeline, h.transit.due, h.transit.sent, h.transit.finalUnderWay⟩

theorem State.openTx_engine {s : State} (L : Legal s) (stream tag wanted : Byte) :
    EngineLegal (State.openTx stream tag wanted s).2 := by
  have h := EngineLegal.of_legal L
  unfold State.openTx
  split
  · exact h
  · rename_i hs
    split
    · exact h
    · rename_i i _
      split
      · exact h
      · rename_i range
        split
        · exact h
        · rename_i idle
          split
          · exact h
          · rename_i free
            exact h.restream rfl (h.work.openStream (i := i) (not_not.mp idle)
              (Stream.opened_fits (not_or.mp hs).2 tag (not_not.mp range)) rfl
              (State.tagTaken_false (Bool.eq_false_iff.mpr free)))

theorem State.closeTx_engine {s : State} (L : Legal s) (stream : Byte) : EngineLegal (State.closeTx stream s).2 := by
  have h := EngineLegal.of_legal L
  have stops (i : StreamNo) : EngineLegal (s.stopStream i) := by
    have one := State.stopAll_concat (i := i) (done := []) s List.not_mem_nil
    rw [State.stopAll_nil, State.withWork_work] at one
    rw [(StoppableAt.of_legal L i).stopStream_eq, one]
    exact State.stopAll_engine h _
  unfold State.closeTx
  split
  · exact h
  · rename_i i _
    have closes := stops i
    split
    · exact h
    · exact h
    all_goals
      rename_i hs
      rw [State.accept_state]
      simpa only [State.stopStream, hs] using closes

theorem State.push_engine {s : State} (L : Legal s) (stream : Byte) (payload : Payload) :
    EngineLegal (State.push stream payload s).2 := by
  have h := EngineLegal.of_legal L
  unfold State.push
  split
  · exact h
  · rename_i i _
    split
    · exact h
    · rename_i takes
      split
      · exact h
      · rename_i room
        split
        · exact h
        · rename_i b _
          have used : s.streams[i].state ≠ .idle ∧ s.streams[i].state ≠ .closing := by
            refine ⟨fun hs => takes ?_, fun hs => takes ?_⟩ <;> rw [hs] <;> exact nofun
          have blocks : s.blocksOf i < Config.txBlocks := Nat.not_le.mp room
          have length : (s.streams[i].queue ++ [({ buffer := b, data := payload } : Block)]).length =
              s.streams[i].queue.length + 1 := List.length_append
          refine h.restream rfl ((h.work.requeue i (blocks := s.streams[i].queue ++ [{ buffer := b, data := payload }])
            (transit := s.inTransit) (fun hs => (hs.elim used.1 used.2).elim) ?_ (fun d hd => ?_) s.freeList).congr
            rfl rfl rfl rfl rfl)
          · rw [length]
            exact (Nat.add_le_add_right (Nat.le_add_right _ _) 1).trans blocks
          · by_cases hi : d.stream = i
            · refine .inr ⟨hi, ((h.stream i).transit d hd hi).2, ?_, fun _ => used⟩
              have carried : s.inTransitOf i = true := (s.inTransitOf_iff i).mpr ⟨d, hd, hi⟩
              rw [State.blocksOf, if_pos carried] at blocks
              rw [length]
              exact blocks
            · exact .inl ⟨hi, hd⟩

end Sys2Proof.Machine
end

section
/-! PROOF. Every command and every step keeps every law of the part: O60. -/

namespace Sys2Proof.Machine

open Sys2Proof.Safety

/-! ## The host link (R163, R167, R170) -/

theorem State.taken_view (s : State) (code : Byte) (serve : State → Reply × State) :
    (s.taken code serve).engineView = (serve s).2.engineView := rfl

theorem State.commit_view (s : State) (target : Option CommitTarget) : (s.commit target).engineView = s.engineView := by
  unfold State.commit
  split
  · rfl
  · rfl
  · unfold State.popHead
    split <;> rfl

theorem State.finishTransaction_view (s : State) (k : Taken) : (s.finishTransaction k).engineView = s.engineView :=
  s.commit_view k.commit

theorem State.deviceReset_engine (s : State) : EngineLegal s.deviceReset :=
  (EngineLegal.of_legal Proofs.resetStateIsLegal).view rfl

theorem State.subscribe_view (entry source tag : Byte) (s : State) :
    (State.subscribe entry source tag s).2.engineView = s.engineView := by
  unfold State.subscribe
  split
  · rfl
  · split
    · split
      · rfl
      · split
        · rfl
        · split <;> rfl
    all_goals rfl

theorem State.unsubscribe_view (entry : Byte) (s : State) : (State.unsubscribe entry s).2.engineView = s.engineView := by
  unfold State.unsubscribe
  split
  · rfl
  · split <;> rfl

theorem RequestCode.serve_engine {s : State} (L : Legal s) (c : RequestCode) (args : List Byte) :
    EngineLegal (c.serve args s).2 := by
  have h := EngineLegal.of_legal L
  cases c with
  | configure => exact State.configure_engine L _ _ _ _
  | start => exact State.startRequest_engine L
  | stop => exact State.stopRequest_engine L
  | reset => exact h
  | openTx => exact State.openTx_engine L _ _ _
  | closeTx => exact State.closeTx_engine L _
  | push => exact State.push_engine L _ _
  | subscribe => exact h.view (State.subscribe_view ..)
  | unsubscribe => exact h.view (State.unsubscribe_view ..)
  | pop => exact h.view (congrArg _ (State.pop_state ..))
  | readEvent => exact h.view (congrArg _ s.readEvent_state)
  | readStation => exact h
  | readStream => exact h.view (congrArg _ (State.readStream_state ..))
  | readSub => exact h.view (congrArg _ (State.readSub_state ..))
  | readSlot => exact h.view (congrArg _ (State.readSlot_state ..))

theorem State.takeByte_engine {s : State} (L : Legal s) (b : Byte) : EngineLegal (s.takeByte b) := by
  have h := EngineLegal.of_legal L
  rcases s.takeByte_cases b with ⟨l, he⟩ | ⟨code, serve, he, hserve⟩ | ⟨-, he⟩ | ⟨k, n, -, -, he⟩ <;> rw [he]
  · exact h.view rfl
  · refine EngineLegal.view (s := (serve s).2) ?_ (s.taken_view code serve)
    rcases hserve with rfl | ⟨c, args, rfl⟩
    · exact h
    · exact c.serve_engine L args
  · exact s.deviceReset_engine
  · exact h.view (s.finishTransaction_view k)

/-! ## Every command -/

theorem State.request_engine {s : State} (h : EngineLegal s) {code : Byte} {args : List Byte}
    {serve : State → Reply × State} (served : EngineLegal (serve s).2) : EngineLegal (s.request code args serve) := by
  rcases s.request_cases code args serve with ⟨-, -, he⟩ | ⟨-, he⟩ <;> rw [he]
  · exact served.view (s.taken_view code serve)
  · exact h

theorem exec_engine {c : Instr} {s t : State} (L : Legal s) (he : exec c s = .next t) : EngineLegal t := by
  have h := EngineLegal.of_legal L
  cases c with
  | configure => cases he; exact State.request_engine h (State.configure_engine L _ _ _ _)
  | start => cases he; exact State.request_engine h (State.startRequest_engine L)
  | stop => cases he; exact State.request_engine h (State.stopRequest_engine L)
  | reset =>
    cases he
    refine State.unlessHeld_engine h ?_
    split
    · exact s.deviceReset_engine
    · exact h
  | openTx => cases he; exact State.request_engine h (State.openTx_engine L _ _ _)
  | closeTx => cases he; exact State.request_engine h (State.closeTx_engine L _)
  | push => cases he; exact State.request_engine h (State.push_engine L _ _)
  | subscribe => cases he; exact State.request_engine h (h.view (State.subscribe_view ..))
  | unsubscribe => cases he; exact State.request_engine h (h.view (State.unsubscribe_view ..))
  | pop => cases he; exact State.request_engine h (h.view (congrArg _ (State.pop_state ..)))
  | readEvent => cases he; exact State.request_engine h (h.view (congrArg _ s.readEvent_state))
  | readStation => cases he; exact State.request_engine h h
  | readStream => cases he; exact State.request_engine h (h.view (congrArg _ (State.readStream_state ..)))
  | readSub => cases he; exact State.request_engine h (h.view (congrArg _ (State.readSub_state ..)))
  | readSlot => cases he; exact State.request_engine h (h.view (congrArg _ (State.readSlot_state ..)))
  | unknownCode =>
    cases he
    split
    · exact State.request_engine h h
    · exact h
  | cycleStart => exact execCycleStart_engine h he
  | beaconPosition => exact execBeaconPosition_engine h he
  | beaconPositionClose => exact execBeaconPositionClose_engine h he
  | slotPhaseStart => exact execSlotPhaseStart_engine h he
  | slotOccurrenceBegin => exact execSlotOccurrenceBegin_engine h he
  | leadIn => exact execLeadIn_engine h he
  | slotOccurrenceEnd => exact execSlotOccurrenceEnd_engine h L.station he
  | cycleEnd => exact execCycleEnd_engine h L.station L.subs he
  | carrierStart => exact execCarrierStart_engine h he
  | carrierEnd => exact execCarrierEnd_engine h he
  | frameReport => exact execFrameReport_engine h he
  | jamReport => exact execJamReport_engine h he
  | readBackMismatch => exact execReadBackMismatch_engine h he
  | listenTimerExpiry => exact execListenTimerExpiry_engine h L.station he
  | transactionBegin =>
    cases he
    split
    · exact h
    · split <;> exact h.view rfl
  | transactionEnd =>
    cases he
    split
    · exact h
    · split <;> exact h.view rfl
  | consumingReadCommit =>
    cases he
    refine State.unlessHeld_engine h ?_
    split
    · split
      · exact h.view (s.finishTransaction_view _)
      · exact h
    all_goals exact h
  | resetInputAsserted =>
    cases he
    split
    · exact h
    · exact s.deviceReset_engine.view rfl
  | resetInputReleased =>
    cases he
    split
    · exact h.view rfl
    · exact h
  | byteComplete b => cases he; exact State.unlessHeld_engine h (State.takeByte_engine L b)

/-! ## Every step -/

/-- The waiting commands and the count of a listen timer are no part of the laws but the station's (R25). -/
theorem legal_of_same_blocks {s t : State} (L : Legal s) (station : StationLegal t)
    (same : t = { s with pending := t.pending, listenTimer := t.listenTimer }) : Legal t := by
  rw [same] at station ⊢
  exact legal_of_parts station ((StoreLegal.of_legal L).congr rfl rfl rfl)
    ⟨L.link.phase, L.link.idleBySelect, L.link.heldQuiet⟩ ((EngineLegal.of_legal L).view rfl)

theorem stationLegal_with_pending {s : State} (h : StationLegal s) (rest : List Instr) :
    StationLegal { s with pending := rest } := (stationLegal_iff _).mpr ((stationLegal_iff s).mp h)

end Sys2Proof.Machine

namespace Sys2Proof.Proofs

open Sys2Proof.Machine Sys2Proof.Safety

/-- Settles O60: each command keeps the laws of the station, of the store, of the link and of the engine, which together
are all laws; a step with no command waiting only ticks the listen timer. -/
theorem stepKeepsEveryLaw : Obligations.StepKeepsEveryLaw := by
  intro s t L h
  have station := stepKeepsStationLaws s t L.station h
  unfold step at h
  split at h
  · cases h
    exact legal_of_same_blocks L station rfl
  · rename_i c rest _
    have L' : Legal { s with pending := rest } := legal_of_same_blocks L (stationLegal_with_pending L.station rest) rfl
    obtain ⟨store, link⟩ := exec_blocks L' h
    exact legal_of_parts station store link (exec_engine L' h)

end Sys2Proof.Proofs
end

section
/-! PROOF. The opening of a beacon position, and the close of one in which the station did not send: O28 and O30. -/

namespace Sys2Proof.Machine

open Sys2Proof.Safety

/-! ## The opening of a position (R44) -/

theorem State.openPosition_unheard {s : State} {p : Position} (drawn : s.drawnPosition = some p)
    (unheard : s.beaconHeard = false) (t : Timeline) :
    s.openPosition t p = { s with
      drawnPosition := none, tx := some { frame := s.beaconFrame t p, stage := .handedOver } } := by
  rw [State.openPosition, if_pos drawn, if_neg (Bool.eq_false_iff.mp unheard)]
  rfl

theorem State.openPosition_heard {s : State} {p : Position} (drawn : s.drawnPosition = some p)
    (heard : s.beaconHeard = true) (t : Timeline) : s.openPosition t p = { s with drawnPosition := none } := by
  rw [State.openPosition, if_pos drawn, if_pos heard]

theorem State.openPosition_undrawn {s : State} {p : Position} (undrawn : s.drawnPosition ≠ some p) (t : Timeline) :
    s.openPosition t p = s :=
  if_neg undrawn

@[simp] theorem State.openPosition_timeline (s : State) (t : Timeline) (p : Position) :
    (s.openPosition t p).timeline = s.timeline := by
  unfold State.openPosition
  split
  · split <;> rfl
  · rfl

theorem exec_beaconPosition {s : State} {p : Position} {t : Timeline} (due : Due s (.positionOpen p) t) :
    exec (.beaconPosition p) s = .next
      { s.openDivision.openPosition t p with timeline := nextDue t (.positionClose p) } := by
  obtain ⟨held, on, ht, hb⟩ := due
  refine congrArg Host.Outcome.next ((State.atEvent_due held on ht hb).trans (State.nextIs_eq ?_ _))
  exact (s.openDivision.openPosition_timeline t p).trans ht

/-! ## The close of a position in which the station did not send (R46 to R48) -/

/-- Where nothing was sent, the close of a division spends the reports alone, as an opening does. -/
theorem State.closeDivision_quiet {s : State} (quiet : s.tx = none) : s.closeDivision = s.openDivision := by
  rw [State.closeDivision, State.openDivision, quiet]

theorem exec_beaconPositionClose_heard {s : State} {p : Position} {t : Timeline} (due : Due s (.positionClose p) t)
    (quiet : s.tx = none) :
    exec (.beaconPositionClose p) s = .next
      ((s.openDivision.takePosition (s.positionClass t p)).nextIs (Boundary.afterPosition p)) := by
  obtain ⟨held, on, ht, hb⟩ := due
  refine congrArg Host.Outcome.next ((State.atEvent_due held on ht hb).trans ?_)
  simp [State.awaitsLeadIn, State.closePosition, quiet, State.closeDivision_quiet quiet]

/-- A beacon's cycle number replaces the station's, and counts as a slip where it differs (R48). -/
theorem State.compareCycle_eq {s : State} {t : Timeline} (ht : s.timeline = some t) (b : BeaconFrame) :
    s.compareCycle b = { s with
      timeline := some { t with cycle := b.cycle }
      counters := { s.counters with
        cycleSlips := if b.cycle = t.cycle then s.counters.cycleSlips else bump s.counters.cycleSlips } } := by
  have same : s.cycleNumber = some b.cycle ↔ b.cycle = t.cycle := by simp [State.cycleNumber, ht, eq_comm]
  by_cases h : b.cycle = t.cycle
  · rw [State.compareCycle, if_pos (same.mpr h), if_pos h, h, ← ht]
  · rw [State.compareCycle, if_neg (mt same.mp h), if_neg h, ht]
    rfl

/-- What a beacon of the station's own timeline does to the cycle, its counts and its boundaries (R3, R47, R48). -/
theorem State.trimToBeacon_eq {s : State} {t : Timeline} (ht : s.timeline = some t) (b : BeaconFrame)
    (firstBit : Time) :
    (s.beaconWasHeard.compareCycle b).trim b firstBit = { s with
      beaconHeard := true, holdover := 0
      timeline := some { t with cycle := b.cycle, startedAt := b.placedStart firstBit }
      counters := { s.counters with
        cleanBeacons := bump s.counters.cleanBeacons
        cycleSlips := if b.cycle = t.cycle then s.counters.cycleSlips else bump s.counters.cycleSlips } } := by
  rw [State.compareCycle_eq (s := s.beaconWasHeard) ht]
  rfl

/-- A clean beacon of the station's own timeline, field by field (R3, R47, R48, R51, R71). -/
theorem State.takeOwnBeacon_eq {s : State} {t : Timeline} (ht : s.timeline = some t) (b : BeaconFrame)
    (firstBit : Time) :
    s.takeOwnBeacon b firstBit = { s with
      beaconHeard := true, holdover := 0
      map := Vector.ofFn fun k => if b.occupancy[k] then s.map[k].reported else s.map[k]
      timeline := some { t with cycle := b.cycle, startedAt := b.placedStart firstBit }
      counters := { s.counters with
        cleanBeacons := bump s.counters.cleanBeacons
        cycleSlips := if b.cycle = t.cycle then s.counters.cycleSlips else bump s.counters.cycleSlips }
      sessionFlag := s.sessionFlag || b.sender == s.config.address
      events := if b.sender = s.config.address ∧ s.sessionFlag = false then
          enqueueEvent s.events { event := .addressClash, cycle := some b.cycle }
        else s.events } := by
  rw [State.takeOwnBeacon, State.trimToBeacon_eq ht, State.checkAddress_eq]
  rfl

end Sys2Proof.Machine

namespace Sys2Proof.Proofs

open Sys2Proof.Machine Sys2Proof.Safety

/-- Settles O28, by whether the position is the drawn one and whether a beacon has been heard. -/
theorem beaconPositionSendsUnlessHeard : Obligations.BeaconPositionSendsUnlessHeard := by
  intro s p t due
  rw [exec_beaconPosition due]
  refine ⟨fun drawn unheard => ?_, fun drawn heard => ?_, fun undrawn => ?_⟩
  · rw [State.openPosition_unheard (s := s.openDivision) drawn unheard]
    rfl
  · rw [State.openPosition_heard (s := s.openDivision) drawn heard]
    rfl
  · rw [State.openPosition_undrawn (s := s.openDivision) undrawn]
    rfl

/-- Settles O30, by the class of the position. -/
theorem heardPositionIsTakenByClass : Obligations.HeardPositionIsTakenByClass := by
  intro s p t due quiet
  have ht : s.openDivision.timeline = some t := due.2.2.1
  rw [exec_beaconPositionClose_heard due quiet]
  refine ⟨fun unmoved => ?_, fun collided => ?_, fun b firstBit own => ?_⟩
  · have stays : s.openDivision.takePosition (s.positionClass t p) = s.openDivision := by
      rcases unmoved with h | h | ⟨b, h⟩ <;> rw [h] <;> rfl
    rw [stays, State.nextIs_eq ht]
    rfl
  · rw [collided, State.takePosition, State.nextIs_eq (s := s.openDivision.countClash) ht]
    rfl
  · rw [own, State.takePosition, State.takeOwnBeacon_eq ht]
    exact ⟨_, rfl, rfl, fun k => (Vector.getElem_ofFn k.isLt).trans
      (congrArg (ite (b.occupancy[k] = true) · s.map[k]) (MapEntry.reported_eq s.map[k]))⟩

end Sys2Proof.Proofs
end

section
/-! PROOF. The end of an occurrence that the station heard: the slot map, the address check and the subscription that a
slot frame matches (R61 to R67, R70, R129 to R135): O35 and O36. -/

namespace Sys2Proof.Machine

open Sys2Proof.Safety

/-! ## The map and the address check (R61 to R67, R70) -/

theorem MapEntry.observe_collided {e : MapEntry} (unowned : e.owned = false) : e.observe .collided = .held none 0 :=
  if_neg (Bool.eq_false_iff.mp unowned)

theorem MapEntry.observe_clean {e : MapEntry} (unowned : e.owned = false) (f : SlotFrame) :
    e.observe (.clean f) = if f.mark = .final then .cooling 4 else .held (some (f.owner, f.tag)) 0 := by
  have framed : e.observe (.clean f) = MapEntry.observeFrame f := if_neg (Bool.eq_false_iff.mp unowned)
  rw [framed, MapEntry.observeFrame]
  cases f.mark <;> rfl

theorem State.observeSlot_frameless {s : State} {k : SlotNo} (unowned : s.map[k].owned = false) {c : ObsClass SlotFrame}
    (frameless : ∀ f, c ≠ .clean f) : s.observeSlot k c = s.setEntry k (s.map[k].observe c) := by
  unfold State.observeSlot
  rw [if_neg (Bool.eq_false_iff.mp unowned)]
  cases c with
  | clean f => exact absurd rfl (frameless f)
  | silent | collided | damaged => rfl

theorem State.observeSlot_clean {s : State} {k : SlotNo} (unowned : s.map[k].owned = false) (f : SlotFrame) :
    s.observeSlot k (.clean f) = (s.checkAddress f.owner).setEntry k (s.map[k].observe (.clean f)) :=
  if_neg (Bool.eq_false_iff.mp unowned)

theorem State.receiveClass_frameless {c : ObsClass SlotFrame} (frameless : ∀ f, c ≠ .clean f) (s : State)
    (k : SlotNo) (cycle : Half) : s.receiveClass k cycle c = s := by
  cases c with
  | clean f => exact absurd rfl (frameless f)
  | silent | collided | damaged => rfl

@[simp] theorem State.recordClass_timeline (s : State) (k : SlotNo) (c : ObsClass SlotFrame) :
    (s.recordClass k c).timeline = s.timeline := by cases c <;> rfl

@[simp] theorem State.recordClass_map (s : State) (k : SlotNo) (c : ObsClass SlotFrame) :
    (s.recordClass k c).map = s.map := by cases c <;> rfl

section Heard

variable {s : State} {k : SlotNo} {t : Timeline}

/-- With nothing sent, the end of an occurrence hands its class on: to the activity record, to the map and to the
receive unit, in this order (R8, R10). -/
theorem exec_slotOccurrenceEnd_heard (due : Due s (.slotEnd k) t) (quiet : s.tx = none) :
    exec (.slotOccurrenceEnd k) s = .next
      ((((s.openDivision.recordClass k (s.slotClass t k)).observeSlot k (s.slotClass t k)).receiveClass k t.cycle
        (s.slotClass t k)).nextIs (Boundary.afterSlot k)) := by
  obtain ⟨held, on, ht, hb⟩ := due
  refine congrArg Host.Outcome.next ((State.atEvent_due held on ht hb).trans ?_)
  simp [State.awaitsLeadIn, quiet, State.endHeardSlot, State.closeDivision_quiet quiet]

/-- Without a frame, an occurrence moves its entry and the activity record alone (R61). -/
theorem exec_slotOccurrenceEnd_frameless (due : Due s (.slotEnd k) t) (quiet : s.tx = none)
    (unowned : s.map[k].owned = false) (frameless : ∀ f, s.slotClass t k ≠ .clean f) :
    exec (.slotOccurrenceEnd k) s = .next { s.openDivision.recordClass k (s.slotClass t k) with
      timeline := nextDue t (Boundary.afterSlot k)
      map := s.map.set k (s.map[k].observe (s.slotClass t k)) } := by
  have ⟨_, _, ht, _⟩ := due
  have hline : (s.openDivision.recordClass k (s.slotClass t k)).timeline = some t :=
    (State.recordClass_timeline _ _ _).trans ht
  have hmap : (s.openDivision.recordClass k (s.slotClass t k)).map = s.map := State.recordClass_map _ _ _
  rw [exec_slotOccurrenceEnd_heard due quiet, State.observeSlot_frameless (by rwa [hmap]) frameless,
    State.receiveClass_frameless frameless, hmap]
  refine congrArg Host.Outcome.next ((State.nextIs_eq (s := State.setEntry _ _ _) hline _).trans ?_)
  rw [State.setEntry, hmap]

/-- The state once a slot frame has passed the activity record, the map and the address check (R15, R64, R65, R70), with
the next event named; the receive unit takes the frame after these (log entry 13). -/
def State.mapsFrame (s : State) (t : Timeline) (k : SlotNo) (f : SlotFrame) : State :=
  { s with
    reports := Reports.empty, timeline := nextDue t (Boundary.afterSlot k)
    activityCurrent := s.activityCurrent.set k true
    map := s.map.set k (if f.mark = .final then .cooling 4 else .held (some (f.owner, f.tag)) 0)
    sessionFlag := s.sessionFlag || f.owner == s.config.address
    events := if f.owner = s.config.address ∧ s.sessionFlag = false then
        enqueueEvent s.events { event := .addressClash, cycle := some t.cycle }
      else s.events }

theorem State.observeSlot_mapsFrame (ht : s.timeline = some t) (unowned : s.map[k].owned = false) (f : SlotFrame) :
    ((s.openDivision.markActive k).observeSlot k (.clean f)).nextIs (Boundary.afterSlot k) = s.mapsFrame t k f := by
  have hc : (s.openDivision.markActive k).cycleNumber = some t.cycle := congrArg (Option.map Timeline.cycle) ht
  have stays : (s.openDivision.markActive k).map = s.map := rfl
  rw [State.observeSlot_clean (s := s.openDivision.markActive k) unowned, State.checkAddress_eq, hc, stays,
    MapEntry.observe_clean unowned]
  refine (State.nextIs_eq (t := t) ?_ _).trans rfl
  exact ht

end Heard

/-! ## The entry that a frame matches (R129) -/

theorem State.matching_none {s : State} {source : Address} {tag : Byte}
    (h : ∀ e : EntryNo, s.subs[e].state ≠ .idle → ¬ (s.subs[e].source = source ∧ s.subs[e].tag = tag)) :
    s.matching source tag = none := by
  refine List.find?_eq_none.mpr fun e _ hm => ?_
  simp only [Bool.and_eq_true, beq_iff_eq, SubState.used_iff] at hm
  obtain ⟨⟨used, hs⟩, ht⟩ := hm
  exact h e used ⟨hs, ht⟩

/-- Used entries differ in source and tag (R127), so the one that follows a frame is the one that matches. -/
theorem State.matching_some {s : State} (L : SubsLegal s) {e : EntryNo} {source : Address} {tag : Byte}
    (used : s.subs[e].state ≠ .idle) (hs : s.subs[e].source = source) (ht : s.subs[e].tag = tag) :
    s.matching source tag = some e := by
  have found : ∃ d, s.matching source tag = some d := by
    refine Option.isSome_iff_exists.mp (List.find?_isSome.mpr ⟨e, List.mem_finRange e, ?_⟩)
    simp only [Bool.and_eq_true, beq_iff_eq, SubState.used_iff]
    exact ⟨⟨used, hs⟩, ht⟩
  obtain ⟨d, hd⟩ := found
  have hm := List.find?_some hd
  simp only [Bool.and_eq_true, beq_iff_eq] at hm
  obtain ⟨⟨-, hds⟩, hdt⟩ := hm
  have same : d = e := by
    by_contra hne
    exact L.pairsDiffer d e hne (State.matching_used hd) used (by rw [hds, hdt, hs, ht])
  rw [hd, same]

/-! ## What the receive unit makes of a frame (R130 to R135) -/

theorem State.modSub_modSub (s : State) (e : EntryNo) (f g : Subscription → Subscription) :
    (s.modSub e f).modSub e g = s.modSub e fun r => g (f r) := by
  simp [State.modSub]

theorem Subscription.hit_eq (r : Subscription) :
    r.hit = { r with
      state := .active, presence := true, quietCount := if r.state = .active then r.quietCount else 0 } := by
  unfold Subscription.hit
  split
  · rename_i h; rw [← h]
  · rfl

/-- A DATA hit on an entry posts SUB_ACTIVE where the entry was not ACTIVE (R134). -/
theorem State.activateSub_hit (s : State) (e : EntryNo) (k : SlotNo) :
    s.activateSub e k = { s.modSub e Subscription.hit with
      events := if s.subs[e].state = .active then s.events
        else enqueueEvent s.events { event := .subActive e k, cycle := s.cycleNumber } } := by
  unfold State.activateSub State.modSub
  split
  · rw [Subscription.hit, if_pos ‹_›]
  · rw [Subscription.hit, if_neg ‹_›]
    rfl

/-- What is stored or dropped before the hit leaves the state that decides on its event (R134). -/
theorem State.activateSub_modSub (s : State) (e : EntryNo) (k : SlotNo) {f : Subscription → Subscription}
    (hf : (f s.subs[e]).state = s.subs[e].state) :
    (s.modSub e f).activateSub e k = { s.modSub e (fun r => (f r).hit) with
      events := if s.subs[e].state = .active then s.events
        else enqueueEvent s.events { event := .subActive e k, cycle := s.cycleNumber } } := by
  have hget : (s.modSub e f).subs[e].state = s.subs[e].state := by
    rw [State.modSub_get, if_pos rfl, hf]
  rw [State.activateSub_hit, hget, State.modSub_modSub]
  rfl

/-- A stored block joins the queue in one of the free buffers (R131, R132, R134, R143). -/
theorem State.hitData_stored {s : State} {e : EntryNo} (room : s.subs[e].queue.length < 16) (pool : 0 < s.freeBuffers)
    (k : SlotNo) (cycle : Half) (f : SlotFrame) :
    ∃ b ∈ s.freeList, s.hitData e k cycle f = { s with
      freeList := s.freeList.erase b, choices := s.choices + 1
      subs := s.subs.set e (s.subs[e].withBlock e k cycle f b).hit
      events := if s.subs[e].state = .active then s.events
        else enqueueEvent s.events { event := .subActive e k, cycle := s.cycleNumber } } := by
  rcases s.givenBuffer_cases with ⟨empty, -⟩ | ⟨b, hb, given⟩
  · exact absurd (List.length_pos_iff.mp pool) (not_not_intro empty)
  · refine ⟨b, hb, ?_⟩
    have stored : s.storeOrDrop e k cycle f = s.storeBlock e k cycle f b := by
      rw [State.storeOrDrop, given]
      exact if_pos room
    rw [State.hitData, stored]
    exact (s.allocate b).activateSub_modSub e k rfl

/-- A dropped block is counted twice, at its entry and at the station, and hits the entry all the same (R131, R133). -/
theorem State.hitData_dropped {s : State} {e : EntryNo} (full : 16 ≤ s.subs[e].queue.length ∨ s.freeBuffers = 0)
    (k : SlotNo) (cycle : Half) (f : SlotFrame) :
    s.hitData e k cycle f = { s with
      counters := { s.counters with receiveDrops := bump s.counters.receiveDrops }
      subs := s.subs.set e ({ s.subs[e] with dropped := bump s.subs[e].dropped } : Subscription).hit
      events := if s.subs[e].state = .active then s.events
        else enqueueEvent s.events { event := .subActive e k, cycle := s.cycleNumber } } := by
  have dropped : s.storeOrDrop e k cycle f = s.dropBlock e := by
    unfold State.storeOrDrop
    split
    · rename_i room
      have empty : s.freeList = [] := List.length_eq_zero_iff.mp (full.resolve_left (Nat.not_le.mpr room))
      rcases s.givenBuffer_cases with ⟨-, none⟩ | ⟨b, hb, -⟩
      · rw [none]
      · exact absurd (empty ▸ hb) List.not_mem_nil
    · rfl
  rw [State.hitData, dropped]
  exact s.countDrop.activateSub_modSub e k (f := fun r => { r with dropped := bump r.dropped }) rfl

section Receive

variable {s : State} {f : SlotFrame} {e : EntryNo}

theorem State.receive_unmatched (h : s.matching f.owner f.tag = none) (k : SlotNo) (cycle : Half) :
    s.receive k cycle f = s := by
  rw [State.receive, h]

theorem State.receive_presence (h : s.matching f.owner f.tag = some e) (hm : f.mark = .claim ∨ f.mark = .fill)
    (k : SlotNo) (cycle : Half) : s.receive k cycle f = s.hitPresence e := by
  rcases hm with hm | hm <;> rw [State.receive, h, hm]

theorem State.receive_data (h : s.matching f.owner f.tag = some e) (hm : f.mark = .data) (k : SlotNo) (cycle : Half) :
    s.receive k cycle f = s.hitData e k cycle f := by
  rw [State.receive, h, hm]

theorem State.receive_final (h : s.matching f.owner f.tag = some e) (hm : f.mark = .final) (k : SlotNo) (cycle : Half) :
    s.receive k cycle f = s.hitFinal e k := by
  rw [State.receive, h, hm]

end Receive

/-! ## The receive unit and the timeline's next event -/

theorem State.post_nextIs (s : State) (b : Boundary) (e : Event) : (s.post e).nextIs b = (s.nextIs b).post e := by
  have hc : (s.nextIs b).cycleNumber = s.cycleNumber := by
    simp [State.cycleNumber, State.nextIs, Option.map_map, Function.comp_def]
  rw [State.post, State.post, hc]
  rfl

theorem State.hitFinal_nextIs (s : State) (b : Boundary) (e : EntryNo) (k : SlotNo) :
    (s.hitFinal e k).nextIs b = (s.nextIs b).hitFinal e k := by
  rw [State.hitFinal, apply_ite (State.nextIs · b), State.post_nextIs]
  rfl

theorem State.activateSub_nextIs (s : State) (b : Boundary) (e : EntryNo) (k : SlotNo) :
    (s.activateSub e k).nextIs b = (s.nextIs b).activateSub e k := by
  rw [State.activateSub, apply_ite (State.nextIs · b), State.post_nextIs]
  rfl

theorem State.storeOrDrop_nextIs (s : State) (b : Boundary) (e : EntryNo) (k : SlotNo) (cycle : Half) (f : SlotFrame) :
    (s.storeOrDrop e k cycle f).nextIs b = (s.nextIs b).storeOrDrop e k cycle f := by
  have given : (s.nextIs b).givenBuffer = s.givenBuffer := rfl
  rw [State.storeOrDrop, State.storeOrDrop, given, State.nextIs_subs]
  split
  · cases s.givenBuffer <;> rfl
  · rfl

/-- The receive unit does not look at the next event, so it may be named before the unit takes the frame. -/
theorem State.receive_nextIs (s : State) (b : Boundary) (k : SlotNo) (cycle : Half) (f : SlotFrame) :
    (s.receive k cycle f).nextIs b = (s.nextIs b).receive k cycle f := by
  have same : (s.nextIs b).matching f.owner f.tag = s.matching f.owner f.tag := rfl
  rw [State.receive, State.receive, same]
  cases s.matching f.owner f.tag with
  | none => rfl
  | some e =>
    cases f.mark with
    | claim | fill => rfl
    | data => exact (State.activateSub_nextIs _ b e k).trans (congrArg (State.activateSub · e k)
        (s.storeOrDrop_nextIs b e k cycle f))
    | final => exact s.hitFinal_nextIs b e k

theorem exec_slotOccurrenceEnd_clean {s : State} {k : SlotNo} {t : Timeline} {f : SlotFrame}
    (due : Due s (.slotEnd k) t) (quiet : s.tx = none) (unowned : s.map[k].owned = false)
    (clean : s.slotClass t k = .clean f) :
    exec (.slotOccurrenceEnd k) s = .next ((s.mapsFrame t k f).receive k t.cycle f) := by
  have ⟨_, _, ht, _⟩ := due
  rw [exec_slotOccurrenceEnd_heard due quiet, clean, ← State.observeSlot_mapsFrame ht unowned f,
    ← State.receive_nextIs]
  rfl

end Sys2Proof.Machine

namespace Sys2Proof.Proofs

open Sys2Proof.Machine Sys2Proof.Safety

/-- Settles O35, by the class of the occurrence and the state of the entry. -/
theorem heardSlotWithoutFrameMovesItsEntry : Obligations.HeardSlotWithoutFrameMovesItsEntry := by
  intro s k t due quiet unowned
  have moves (c : ObsClass SlotFrame) (hc : s.slotClass t k = c) (frameless : ∀ f, c ≠ .clean f) :=
    exec_slotOccurrenceEnd_frameless due quiet unowned (hc ▸ frameless)
  refine ⟨fun silent => ?_, fun collided => ?_, fun damaged => ?_⟩
  · rw [moves _ silent nofun, silent]
    cases s.map[k] <;> rfl
  · rw [moves _ collided nofun, collided, MapEntry.observe_collided unowned]
    rfl
  · rw [moves _ damaged nofun, damaged]
    generalize s.map[k] = e at unowned
    cases e with
    | unknown | free | held | cooling => rfl
    | probe | mine => cases unowned

/-- Settles O36, by the entry that the frame matches and the frame's mark. -/
theorem cleanSlotFeedsMapAndSubscription : Obligations.CleanSlotFeedsMapAndSubscription := by
  intro s k t f due quiet unowned clean u hu
  obtain rfl : u = s.mapsFrame t k f := hu
  rw [exec_slotOccurrenceEnd_clean due quiet unowned clean]
  refine ⟨fun unmatched => ?_, fun e legal used source tag => ?_⟩
  · rw [State.receive_unmatched (s := s.mapsFrame t k f) (State.matching_none unmatched)]
  · have matched : (s.mapsFrame t k f).matching f.owner f.tag = some e := State.matching_some legal used source tag
    refine ⟨fun mark => ?_, fun mark => ?_, fun mark room pool => ?_, fun mark full => ?_⟩
    · rw [State.receive_presence matched mark]
      rfl
    · rw [State.receive_final matched mark]
      rfl
    · obtain ⟨b, hb, stored⟩ := State.hitData_stored (s := s.mapsFrame t k f) room pool k t.cycle f
      refine ⟨b, hb, ?_⟩
      rw [State.receive_data matched mark, stored, Subscription.hit_eq]
      rfl
    · rw [State.receive_data matched mark, State.hitData_dropped (s := s.mapsFrame t k f) full, Subscription.hit_eq]
      rfl

end Sys2Proof.Proofs
end

section
/-! PROOF. The law of the claim queue and the lanes by itself: what it says, and what keeps it. -/

namespace Sys2Proof.Machine

open Sys2Proof.Safety

/-! ## What the law of the claim queue and the lanes says (R83) -/

/-- A lane carries stream `i`. -/
def State.Probes (s : State) (i : StreamNo) : Prop := ∃ l : LaneNo, ∃ r ∈ s.lanes[l], r.stream = i

theorem State.not_probes_iff (s : State) (i : StreamNo) : ¬ s.Probes i ↔ s.probing i = 0 := by
  rw [s.probing_eq_zero_iff i]
  exact ⟨fun h l r hr hi => h ⟨l, r, hr, hi⟩, fun h ⟨l, r, hr, hi⟩ => h l r hr hi⟩

/-- No stream is queued, and both lanes are idle. -/
def State.Unclaimed (s : State) : Prop := s.claimQueue = [] ∧ ∀ l : LaneNo, s.lanes[l] = none

/-- What the law says in every station state. -/
structure ClaimsFit (s : State) : Prop where
  lanes : LaneLaws s.map s.lanes
  queueOnce : s.claimQueue.Nodup
  queued : ∀ i ∈ s.claimQueue, s.streams[i].state = .claiming ∧ ¬ s.Probes i
  laned : ∀ l : LaneNo, ∀ r ∈ s.lanes[l], s.streams[r.stream].state = .claiming ∧ r.cleanCount < Config.probeCycles

theorem claimsLegal_iff {s : State} : ClaimsLegal s ↔ ClaimsFit s ∧ (s.station ≠ .active → s.Unclaimed) := by
  constructor
  · intro h
    refine ⟨⟨.of_legal h, h.queueOnce, fun i hi => ?_, fun l r hr => ?_⟩, fun hne => ?_⟩
    · obtain ⟨hc, hp⟩ := h.queuedClaims i hi
      exact ⟨hc, (s.not_probes_iff i).mpr hp⟩
    · obtain ⟨hc, -, hn⟩ := h.lanedClaims l r hr
      exact ⟨hc, hn⟩
    · obtain ⟨hq, h0, h1⟩ := h.onlyActive hne
      refine ⟨hq, fun l => ?_⟩
      rcases LaneNo.eq_zero_or_one l with rfl | rfl
      · exact h0
      · exact h1
  · rintro ⟨h, idle⟩
    exact
      { queueOnce := h.queueOnce
        queuedClaims := fun i hi => ⟨(h.queued i hi).1, (s.not_probes_iff i).mp (h.queued i hi).2⟩
        lanedClaims := fun l r hr => ⟨(h.laned l r hr).1, h.lanes.lanesProbe l r hr, (h.laned l r hr).2⟩
        lanesDiffer := h.lanes.lanesDiffer 0 1 (by decide)
        probesLaned := h.lanes.probesLaned
        onlyActive := fun hne => ⟨(idle hne).1, (idle hne).2 0, (idle hne).2 1⟩ }

/-- In ACTIVE the law asks nothing of the station state. -/
theorem ClaimsFit.legal {s : State} (h : ClaimsFit s) (hs : s.station = .active) : ClaimsLegal s :=
  claimsLegal_iff.mpr ⟨h, fun hne => absurd hs hne⟩

/-- Where no stream is CLAIMING, none is queued or on a lane. -/
theorem ClaimsFit.unclaimed {s : State} (h : ClaimsFit s) (hn : ∀ i : StreamNo, s.streams[i].state ≠ .claiming) :
    s.Unclaimed :=
  ⟨List.eq_nil_iff_forall_not_mem.mpr fun i hi => hn i (h.queued i hi).1,
    fun l => Option.eq_none_iff_forall_not_mem.mpr fun r hr => hn r.stream (h.laned l r hr).1⟩

/-- No stream is queued, no lane busy and no entry PROBE. -/
structure NoClaims (s : State) : Prop where
  claimQueue : s.claimQueue = []
  lanes : ∀ l : LaneNo, s.lanes[l] = none
  entries : ∀ (k : SlotNo) (l : LaneNo) (i : StreamNo), s.map[k] ≠ .probe l i

theorem NoClaims.fit {s : State} (h : NoClaims s) : ClaimsFit s where
  lanes := .empty h.lanes h.entries
  queueOnce := h.claimQueue ▸ List.nodup_nil
  queued _ hi := absurd (h.claimQueue ▸ hi) List.not_mem_nil
  laned l _ hr := nomatch (h.lanes l).symm.trans hr

theorem NoClaims.legal {s : State} (h : NoClaims s) : ClaimsLegal s :=
  claimsLegal_iff.mpr ⟨h.fit, fun _ => ⟨h.claimQueue, h.lanes⟩⟩

/-! ## What makes no claim -/

/-- From `s` to `t` no stream joins the queue or a lane, and one that stays in its place stays CLAIMING. -/
structure ClaimsFewer (s t : State) : Prop where
  queue : t.claimQueue.Sublist s.claimQueue
  laned : ∀ l : LaneNo, ∀ r ∈ t.lanes[l], ∃ q ∈ s.lanes[l], q.stream = r.stream ∧
    (q.cleanCount < Config.probeCycles → r.cleanCount < Config.probeCycles)
  claiming : ∀ i : StreamNo, i ∈ t.claimQueue ∨ t.Probes i →
    s.streams[i].state = .claiming → t.streams[i].state = .claiming

namespace ClaimsFewer

variable {s t : State}

theorem probes (k : ClaimsFewer s t) {i : StreamNo} : t.Probes i → s.Probes i := by
  rintro ⟨l, r, hr, rfl⟩
  obtain ⟨q, hq, hs, -⟩ := k.laned l r hr
  exact ⟨l, q, hq, hs⟩

theorem fit (k : ClaimsFewer s t) (h : ClaimsFit s) (lanes : LaneLaws t.map t.lanes) : ClaimsFit t where
  lanes := lanes
  queueOnce := h.queueOnce.sublist k.queue
  queued i hi := by
    obtain ⟨hc, hp⟩ := h.queued i (k.queue.subset hi)
    exact ⟨k.claiming i (.inl hi) hc, fun hn => hp (k.probes hn)⟩
  laned l r hr := by
    obtain ⟨q, hq, hs, hn⟩ := k.laned l r hr
    obtain ⟨hc, hqn⟩ := h.laned l q hq
    exact ⟨k.claiming r.stream (.inr ⟨l, r, hr, rfl⟩) (hs ▸ hc), hn hqn⟩

theorem unclaimed (k : ClaimsFewer s t) (h : s.Unclaimed) : t.Unclaimed :=
  ⟨List.sublist_nil.mp (h.1 ▸ k.queue), fun l => Option.eq_none_iff_forall_not_mem.mpr fun r hr => by
    obtain ⟨q, hq, -⟩ := k.laned l r hr
    exact nomatch (h.2 l).symm.trans hq⟩

theorem legal (k : ClaimsFewer s t) (h : ClaimsLegal s) (active : s.station = .active → t.station = .active)
    (lanes : LaneLaws t.map t.lanes) : ClaimsLegal t := by
  obtain ⟨fit, idle⟩ := claimsLegal_iff.mp h
  exact claimsLegal_iff.mpr ⟨k.fit fit lanes, fun hne => k.unclaimed (idle fun hs => hne (active hs))⟩

end ClaimsFewer

/-! ## What leaves every claim as it is -/

/-- From `s` to `t` the queue and the lanes stay, the PROBE entries stay, and a CLAIMING stream stays CLAIMING. -/
structure ClaimsStand (s t : State) : Prop where
  active : s.station = .active → t.station = .active
  claimQueue : t.claimQueue = s.claimQueue
  lanes : t.lanes = s.lanes
  entries : ∀ k : SlotNo, t.map[k] = s.map[k] ∨ NoProbe s.map[k] t.map[k]
  claiming : ∀ i : StreamNo, s.streams[i].state = .claiming → t.streams[i].state = .claiming

theorem NoProbe.of_owned {e e' : MapEntry} (h : e.owned = false) (h' : e'.owned = false) : NoProbe e e' :=
  fun l i => ⟨MapEntry.not_probe_of_not_owned h l i, MapEntry.not_probe_of_not_owned h' l i⟩

namespace ClaimsStand

variable {s t u : State}

theorem refl (s : State) : ClaimsStand s s := ⟨id, rfl, rfl, fun _ => .inl rfl, fun _ => id⟩

theorem trans (h : ClaimsStand s t) (k : ClaimsStand t u) : ClaimsStand s u where
  active := k.active ∘ h.active
  claimQueue := k.claimQueue.trans h.claimQueue
  lanes := k.lanes.trans h.lanes
  entries j := by
    rcases h.entries j with he | hn <;> rcases k.entries j with ke | kn
    · exact .inl (ke.trans he)
    · exact .inr (he ▸ kn)
    · exact .inr (ke ▸ hn)
    · exact .inr fun l i => ⟨(hn l i).1, (kn l i).2⟩
  claiming i := k.claiming i ∘ h.claiming i

theorem foldl {α : Type} {f : State → α → State} (h : ∀ s a, ClaimsStand s (f s a)) (as : List α) (s : State) :
    ClaimsStand s (as.foldl f s) := by
  induction as generalizing s with
  | nil => exact .refl s
  | cons a as ih => exact (h s a).trans (ih _)

theorem laneLaws (h : ClaimsStand s t) (L : LaneLaws s.map s.lanes) : LaneLaws t.map t.lanes :=
  h.lanes ▸ L.entries h.entries

theorem fewer (h : ClaimsStand s t) : ClaimsFewer s t where
  queue := h.claimQueue ▸ List.Sublist.refl _
  laned _ r hr := ⟨r, h.lanes ▸ hr, rfl, id⟩
  claiming _ _ := h.claiming _

theorem fit (h : ClaimsStand s t) (C : ClaimsFit s) : ClaimsFit t := h.fewer.fit C (h.laneLaws C.lanes)

theorem legal (h : ClaimsStand s t) (C : ClaimsLegal s) : ClaimsLegal t :=
  h.fewer.legal C h.active (h.laneLaws (.of_legal C))

theorem noClaims (h : ClaimsStand s t) (C : NoClaims s) : NoClaims t where
  claimQueue := h.claimQueue.trans C.claimQueue
  lanes := h.lanes ▸ C.lanes
  entries k l i := by
    rcases h.entries k with he | hn
    · rw [he]; exact C.entries k l i
    · exact (hn l i).2

/-- The settle count, the next boundary, the frame handed over and the in-transit block are no part of the law. -/
theorem view {n : Nat} {b : Option Boundary} {f : Option Frame} {d : Option InTransit}
    (hv : t.engineView = { s.engineView with settle := n, boundary := b, frame := f, inTransit := d }) :
    ClaimsStand s t := by
  obtain ⟨station, -, -, -, map, claimQueue, lanes, streams, -⟩ := EngineView.mk.inj hv
  exact ⟨station.trans, claimQueue, lanes, fun k => .inl (by rw [map]; rfl), fun i hc => by rw [streams]; exact hc⟩

theorem of_view {n : Nat} {b : Option Boundary} {f : Option Frame} {d : Option InTransit} (C : ClaimsLegal s)
    (hv : t.engineView = { s.engineView with settle := n, boundary := b, frame := f, inTransit := d }) :
    ClaimsLegal t := (ClaimsStand.view hv).legal C

/-- A change of one entry that is PROBE neither before nor after. -/
theorem setEntry (s : State) {k : SlotNo} {e : MapEntry} (h : e = s.map[k] ∨ NoProbe s.map[k] e) :
    ClaimsStand s (s.setEntry k e) where
  active := id
  claimQueue := rfl
  lanes := rfl
  entries j := by
    rw [State.setEntry_get]
    split
    · rename_i hk; exact hk ▸ h
    · exact .inl rfl
  claiming _ := id

/-- A MINE entry that becomes an entry which is not PROBE. -/
theorem setMine {k : SlotNo} {i : StreamNo} {c : Nat} {f : Bool} (h : s.map[k] = .mine i c f) {e : MapEntry}
    (he : ∀ (l : LaneNo) (j : StreamNo), e ≠ .probe l j) : ClaimsStand s (s.setEntry k e) :=
  .setEntry s (.inr (h ▸ fun l j => ⟨nofun, he l j⟩))

/-- A change of the entries that makes and ends no PROBE. -/
theorem mapEntries (s : State) {f : SlotNo → MapEntry → MapEntry}
    (h : ∀ k : SlotNo, f k s.map[k] = s.map[k] ∨ NoProbe s.map[k] (f k s.map[k])) : ClaimsStand s (s.mapEntries f) where
  active hs := (s.mapEntries_station f).trans hs
  claimQueue := s.mapEntries_claimQueue f
  lanes := s.mapEntries_lanes f
  entries k := by rw [State.mapEntries_get]; exact h k
  claiming i hc := by rw [State.mapEntries_streams]; exact hc

/-- A change of one record that leaves a CLAIMING stream CLAIMING. -/
theorem record {i : StreamNo} {r : Stream} {n : Nat} {b : Option Boundary} {f : Option Frame} {d : Option InTransit}
    (hv : t.engineView = { s.engineView with
      streams := s.streams.set i r, settle := n, boundary := b, frame := f, inTransit := d })
    (h : s.streams[i].state = .claiming → r.state = .claiming) : ClaimsStand s t := by
  obtain ⟨station, -, -, -, map, claimQueue, lanes, streams, -⟩ := EngineView.mk.inj hv
  refine ⟨station.trans, claimQueue, lanes, fun k => .inl (by rw [map]; rfl), fun j hc => ?_⟩
  rw [streams, getElem_set_fin]
  split
  · rename_i hi; exact h (hi ▸ hc)
  · exact hc

/-- A change of every record that leaves a CLAIMING stream CLAIMING. -/
theorem mapStreams (s : State) {f : StreamNo → Stream → Stream}
    (h : ∀ i : StreamNo, s.streams[i].state = .claiming → (f i s.streams[i]).state = .claiming) :
    ClaimsStand s (s.mapStreams f) where
  active hs := (s.mapStreams_station f).trans hs
  claimQueue := s.mapStreams_claimQueue f
  lanes := s.mapStreams_lanes f
  entries k := .inl (by rw [State.mapStreams_map])
  claiming i hc := by rw [State.mapStreams_get]; exact h i hc

end ClaimsStand

/-! ## Operations that leave every claim as it is -/

/-! ### Events, the slot map and the receive unit -/

theorem State.post_stand (s : State) (e : Event) : ClaimsStand s (s.post e) := .view rfl

theorem State.postAll_stand (s : State) (es : List Event) : ClaimsStand s (s.postAll es) := by
  rw [State.postAll_eq]; exact .view rfl

theorem State.nextIs_stand (s : State) (b : Boundary) : ClaimsStand s (s.nextIs b) := .view rfl

theorem State.checkAddress_stand (s : State) (a : Address) : ClaimsStand s (s.checkAddress a) :=
  .view (s.checkAddress_view a)

theorem State.mergeSummary_stand (s : State) (summary : SlotFlags) : ClaimsStand s (s.mergeSummary summary) :=
  .mapEntries s fun k => by
    split
    · exact (MapEntry.reported_owned s.map[k]).imp id fun h => .of_owned h.2 h.1
    · exact .inl rfl

theorem State.fillMap_stand (s : State) : ClaimsStand s s.fillMap :=
  .mapEntries s fun k => by
    split
    · exact .inl rfl
    · rename_i ho
      exact .inr (.of_owned (Bool.eq_false_iff.mpr ho) rfl)

theorem State.observeSlot_stand (s : State) (k : SlotNo) (c : ObsClass SlotFrame) : ClaimsStand s (s.observeSlot k c) := by
  have same : (s.observeSlot k c).engineView = (s.setEntry k (s.map[k].observe c)).engineView := s.observeSlot_view k c
  refine ClaimsStand.trans ?_ (.view (s := s.setEntry k (s.map[k].observe c)) same)
  exact .setEntry s ((MapEntry.observe_owned c s.map[k]).imp id fun h => .of_owned h.2 h.1)

theorem State.receiveCycleEnd_stand (s : State) : ClaimsStand s s.receiveCycleEnd := by
  have one (u : State) (e : EntryNo) : ClaimsStand u (u.countQuiet e) := by
    unfold State.countQuiet
    split
    · split <;> exact .view rfl
    · exact .view rfl
  unfold State.receiveCycleEnd
  split
  · exact .foldl one _ s
  · exact .refl s

/-! ### The stream unit (R106, R110 to R118) -/

theorem State.finishClosing_stand (s : State) (i : StreamNo) : ClaimsStand s (s.finishClosing i) := by
  unfold State.finishClosing
  split
  · rename_i h
    exact .record (i := i) rfl fun hc => nomatch h.1.symm.trans hc
  · exact .refl s

theorem StreamState.afterRelease_claiming {x : StreamState} (h : x = .claiming) : x.afterRelease = .claiming := by
  rw [h]; rfl

theorem State.releaseSlot_stand {s : State} {k : SlotNo} {i : StreamNo} {c : Nat} {f : Bool}
    (h : s.map[k] = .mine i c f) : ClaimsStand s (s.releaseSlot k i) := by
  refine ClaimsStand.trans ?_ (State.finishClosing_stand _ i)
  refine ClaimsStand.trans ?_ (State.post_stand _ _)
  exact (ClaimsStand.setMine h (e := .held none 0) fun _ _ => nofun).trans
    (.record (i := i) rfl StreamState.afterRelease_claiming)

theorem State.raiseConflict_stand (s : State) (k : SlotNo) : ClaimsStand s (s.raiseConflict k) := by
  unfold State.raiseConflict
  split
  · rename_i i c f h
    split
    · exact .setMine h fun _ _ => nofun
    · exact State.releaseSlot_stand h
  all_goals exact .refl s

theorem State.clearConflict_stand (s : State) (k : SlotNo) : ClaimsStand s (s.clearConflict k) := by
  unfold State.clearConflict
  split
  · rename_i i c f h
    exact .setMine h fun _ _ => nofun
  all_goals exact .refl s

theorem State.settleTransit_stand (s : State) : ClaimsStand s s.settleTransit := by
  unfold State.settleTransit
  split
  · exact .refl s
  · split
    · exact .record rfl id
    · exact .view rfl

theorem State.deliverTransit_stand (s : State) : ClaimsStand s s.deliverTransit := by
  unfold State.deliverTransit
  split
  · exact .refl s
  · exact .record rfl id

theorem State.finalSent_stand (s : State) (k : SlotNo) : ClaimsStand s (s.finalSent k) := by
  unfold State.finalSent
  split
  · rename_i i c f h
    refine ClaimsStand.trans ?_ (State.finishClosing_stand _ i)
    exact (ClaimsStand.setMine h (e := .cooling Config.cool) fun _ _ => nofun).trans (.record (i := i) rfl id)
  all_goals exact .refl s

theorem State.sendOwned_stand (s : State) (k : SlotNo) (i : StreamNo) (final : Bool) :
    ClaimsStand s (s.sendOwned k i final) := by
  unfold State.sendOwned
  split
  · exact .view rfl
  · split
    · exact .record (i := i) rfl id
    · exact .record (i := i) rfl id

theorem State.beginSlot_stand (s : State) (k : SlotNo) : ClaimsStand s (s.beginSlot k) := by
  unfold State.beginSlot
  split
  · split
    · exact .view rfl
    · exact .refl s
  · split
    · exact s.sendOwned_stand k _ _
    · exact .refl s
  all_goals exact .refl s

/-- A FAILED stream that ends had no claim (R117). -/
theorem State.closeFailed_stand {s : State} {i : StreamNo} (h : s.streams[i].state = .failed) :
    ClaimsStand s (s.closeFailed i) := by
  rw [State.closeFailed_eq]
  exact .record (i := i) rfl fun hc => nomatch h.symm.trans hc

theorem State.shortStream_stand (s : State) (i : StreamNo) (why : Reason) : ClaimsStand s (s.shortStream i why) := by
  unfold State.shortStream
  split
  · exact .refl s
  · exact .record (i := i) rfl id

/-! ### The beacon unit (R43 to R48) -/

theorem State.openPosition_stand (s : State) (t : Timeline) (p : Position) : ClaimsStand s (s.openPosition t p) := by
  obtain ⟨f, hf⟩ := s.openPosition_view t p
  exact .view hf

theorem State.beaconOutcome_stand (s : State) (o : Outcome) : ClaimsStand s (s.beaconOutcome o) := by
  cases o <;> exact .view rfl

theorem State.takeOwnBeacon_stand (s : State) (b : BeaconFrame) (firstBit : Time) :
    ClaimsStand s (s.takeOwnBeacon b firstBit) := by
  have trimmed : ClaimsStand s ((s.beaconWasHeard.compareCycle b).trim b firstBit) :=
    .view ((State.trim_view _ _ _).trans (State.compareCycle_view _ _))
  exact (trimmed.trans (State.mergeSummary_stand _ _)).trans (State.checkAddress_stand _ _)

theorem State.takePosition_stand (s : State) (c : ObsClass HeardBeacon) : ClaimsStand s (s.takePosition c) := by
  unfold State.takePosition
  split
  · exact .refl s
  · exact s.takeOwnBeacon_stand _ _
  · exact .refl s
  · exact .view rfl
  · exact .refl s

end Sys2Proof.Machine
end

section
/-! PROOF. What makes and ends a claim keeps the law of the claim queue and the lanes: the slot-phase start, the outcome
of a CLAIM, the close of a stream and STOP. -/

namespace Sys2Proof.Machine

open Sys2Proof.Safety

/-! ## The slot-phase start (R85 to R90) -/

/-- The streams that join are CLAIMING, and neither queued nor on a lane (R87). -/
theorem State.joinQueue_claims {s : State} (h : ClaimsFit s) : ClaimsFit s.joinQueue := by
  have joins {i : StreamNo} (hi : i ∈ allStreams.filter s.mayJoin) :
      s.streams[i].state = .claiming ∧ i ∉ s.claimQueue ∧ ¬ s.Probes i := by
    obtain ⟨ready, hq, hp⟩ := (s.mayJoin_iff i).mp (List.mem_filter.mp hi).2
    exact ⟨ready.claiming, hq, (s.not_probes_iff i).mpr hp⟩
  refine ⟨h.lanes, h.queueOnce.append ((List.nodup_finRange 8).filter _) fun i hi hj => (joins hj).2.1 hi,
    fun i hi => ?_, h.laned⟩
  rcases List.mem_append.mp hi with hq | hj
  · exact h.queued i hq
  · obtain ⟨hc, -, hp⟩ := joins hj
    exact ⟨hc, hp⟩

/-- The head of the queue leaves it for an idle lane and a FREE slot (R88). -/
theorem State.grant_claims {s : State} (h : ClaimsFit s) {l : LaneNo} {i : StreamNo} {rest : List StreamNo} {k : SlotNo}
    (hl : s.lanes[l] = none) (hq : s.claimQueue = i :: rest) (hk : s.map[k] = .free) : ClaimsFit (s.grant l i k) := by
  obtain ⟨fresh, once⟩ := List.nodup_cons.mp (hq ▸ h.queueOnce)
  obtain ⟨head, idle⟩ := h.queued i (hq ▸ List.mem_cons_self)
  have queue : (s.grant l i k).claimQueue = rest := congrArg List.tail hq
  have lane (m : LaneNo) : (s.grant l i k).lanes[m] =
      if l = m then some { stream := i, slot := k, cleanCount := 0 } else s.lanes[m] := getElem_set_fin ..
  have state (j : StreamNo) : (s.grant l i k).streams[j].state = s.streams[j].state := by
    have get : (s.grant l i k).streams[j] = if i = j then { s.streams[i] with deferral := 0 } else s.streams[j] :=
      State.modStream_get _ i j _
    rw [get]
    split
    · rename_i hij; rw [← hij]
    · rfl
  refine ⟨?_, queue ▸ once, fun j hj => ?_, fun m r hr => ?_⟩
  · exact h.lanes.grant hl (fun m j => hk ▸ nofun) (fun m r hr hi => idle ⟨m, r, hr, hi⟩) 0
  · rw [queue] at hj
    obtain ⟨hc, hp⟩ := h.queued j (hq ▸ List.mem_cons_of_mem i hj)
    refine ⟨(state j).trans hc, ?_⟩
    rintro ⟨m, r, hr, rfl⟩
    rw [lane] at hr
    split at hr
    · cases hr; exact fresh hj
    · exact hp ⟨m, r, hr, rfl⟩
  · rw [state]
    rw [lane] at hr
    split at hr
    · cases hr; exact ⟨head, Nat.zero_lt_succ _⟩
    · exact h.laned m r hr

theorem State.mem_freeSlots {s : State} {k : SlotNo} : k ∈ s.freeSlots ↔ s.map[k] = .free := by
  simp [State.freeSlots, allSlots]

theorem State.serveLane_claims {s : State} (h : ClaimsFit s) (l : LaneNo) : ClaimsFit (s.serveLane l) := by
  unfold State.serveLane
  split
  · rename_i i rest hl hq
    split
    · rename_i k hk
      have drawn : ClaimsStand s s.drawUsed := .view rfl
      exact State.grant_claims (drawn.fit h) hl hq (State.mem_freeSlots.mp (List.mem_of_getElem? hk))
    · exact h
  all_goals exact h

/-- From `s` to `t` only the record of stream `i` moves, of what the law speaks of. -/
structure OneRecord (i : StreamNo) (s t : State) : Prop where
  map : t.map = s.map
  claimQueue : t.claimQueue = s.claimQueue
  lanes : t.lanes = s.lanes
  others : ∀ j : StreamNo, j ≠ i → t.streams[j] = s.streams[j]

namespace OneRecord

variable {i : StreamNo} {s t u : State}

theorem refl (i : StreamNo) (s : State) : OneRecord i s s := ⟨rfl, rfl, rfl, fun _ _ => rfl⟩

theorem trans (h : OneRecord i s t) (k : OneRecord i t u) : OneRecord i s u :=
  ⟨k.map.trans h.map, k.claimQueue.trans h.claimQueue, k.lanes.trans h.lanes,
    fun j hj => (k.others j hj).trans (h.others j hj)⟩

theorem set {r : Stream} (map : t.map = s.map) (claimQueue : t.claimQueue = s.claimQueue) (lanes : t.lanes = s.lanes)
    (streams : t.streams = s.streams.set i r) : OneRecord i s t :=
  ⟨map, claimQueue, lanes, fun j hj => by rw [streams, getElem_set_fin, if_neg (Ne.symm hj)]⟩

end OneRecord

theorem State.failStream_record (s : State) (i : StreamNo) (why : Reason) : OneRecord i s (s.failStream i why) :=
  .set rfl rfl rfl rfl

theorem State.shortStream_record (s : State) (i : StreamNo) (why : Reason) : OneRecord i s (s.shortStream i why) := by
  rw [State.shortStream_eq]; exact .set rfl rfl rfl rfl

theorem State.goLive_record (s : State) (i : StreamNo) (k : SlotNo) : OneRecord i s (s.goLive i k) := by
  unfold State.goLive
  split
  · exact .set rfl rfl rfl rfl
  · exact .refl i s

theorem State.limitAttempts_record (s : State) (i : StreamNo) : OneRecord i s (s.limitAttempts i) := by
  unfold State.limitAttempts
  split
  · exact .refl i s
  · split
    · exact s.failStream_record i _
    · have modified : OneRecord i s (s.modStream i fun q => { q with attempts := 0 }) := .set rfl rfl rfl rfl
      exact modified.trans (State.shortStream_record _ i _)

/-- A stream that no lane carries leaves the queue, whatever becomes of its record. -/
theorem ClaimsFit.dismiss {s t : State} {i : StreamNo} (h : ClaimsFit s) (idle : ¬ s.Probes i)
    (record : OneRecord i { s with claimQueue := s.claimQueue.filter (· ≠ i) } t) : ClaimsFit t := by
  have k : ClaimsFewer s t :=
    { queue := record.claimQueue ▸ List.filter_sublist
      laned := fun _ r hr => ⟨r, record.lanes ▸ hr, rfl, id⟩
      claiming := fun j hj hc => by
        have hji : j ≠ i := by
          rintro rfl
          rcases hj with hq | ⟨l, r, hr, hi⟩
          · rw [record.claimQueue] at hq
            exact of_decide_eq_true (List.mem_filter.mp hq).2 rfl
          · exact idle ⟨l, r, record.lanes ▸ hr, hi⟩
        rw [record.others j hji]
        exact hc }
  exact k.fit h (record.map ▸ record.lanes ▸ h.lanes)

/-- The deferral limit judges a queued stream, which no lane carries (R90). -/
theorem State.limitDeferral_claims {s : State} {i : StreamNo} (h : ClaimsFit s) (idle : ¬ s.Probes i) :
    ClaimsFit (s.limitDeferral i) ∧ (s.limitDeferral i).lanes = s.lanes := by
  unfold State.limitDeferral
  split
  · exact ⟨h, rfl⟩
  · split
    · exact ⟨h.dismiss idle (State.failStream_record _ i _), rfl⟩
    · have reset : ClaimsStand s (s.modStream i fun r => { r with deferral := 0 }) := .record rfl id
      have stand := reset.trans (State.shortStream_stand _ i .noSlot)
      exact ⟨stand.fit h, stand.lanes⟩

theorem State.limitDeferrals_claims (es : List StreamNo) {s : State} (h : ClaimsFit s) (idle : ∀ i ∈ es, ¬ s.Probes i) :
    ClaimsFit (es.foldl State.limitDeferral s) := by
  induction es generalizing s with
  | nil => exact h
  | cons i es ih =>
    obtain ⟨fit, lanes⟩ := State.limitDeferral_claims h (idle i List.mem_cons_self)
    refine ih fit fun j hj => ?_
    rw [State.Probes, lanes]
    exact idle j (List.mem_cons_of_mem i hj)

theorem State.serveClaims_claims {s : State} (h : ClaimsFit s) : ClaimsFit s.serveClaims := by
  have counted : ClaimsStand s s.countBackoffs := .mapStreams s fun i hc => by rw [if_pos hc]; exact hc
  have joined := State.joinQueue_claims (counted.fit h)
  have deferred (u : State) : ClaimsStand u u.countDeferrals := .mapStreams u fun i hc => by split <;> exact hc
  have limited {u : State} (hu : ClaimsFit u) : ClaimsFit u.limitDeferrals :=
    State.limitDeferrals_claims u.claimQueue hu fun i hi => (hu.queued i hi).2
  unfold State.serveClaims State.serveLanes
  split
  · exact limited ((deferred _).fit joined)
  · exact limited (State.serveLane_claims (State.serveLane_claims joined 0) 1)

/-! ## The outcome of a CLAIM (R92 to R95) -/

/-- A lane that gives up its slot, whatever becomes of the record of its stream. -/
theorem claimsLegal_endProbe {s t : State} (h : ClaimsLegal s) {l : LaneNo} {r : Lane} (hr : s.lanes[l] = some r)
    {e : MapEntry} (he : ∀ (m : LaneNo) (i : StreamNo), e ≠ .probe m i) (station : t.station = s.station)
    (record : OneRecord r.stream ((s.setLane l none).setEntry r.slot e) t) : ClaimsLegal t := by
  obtain ⟨fit, -⟩ := claimsLegal_iff.mp h
  have lane (m : LaneNo) (q : Lane) (hq : q ∈ t.lanes[m]) : l ≠ m ∧ q ∈ s.lanes[m] := by
    rw [record.lanes, State.setEntry_lanes, State.setLane_get] at hq
    split at hq
    · cases hq
    · exact ⟨‹_›, hq⟩
  have k : ClaimsFewer s t :=
    { queue := record.claimQueue ▸ List.Sublist.refl _
      laned := fun m q hq => ⟨q, (lane m q hq).2, rfl, id⟩
      claiming := fun i hi hc => by
        have other : i ≠ r.stream := by
          rintro rfl
          rcases hi with hq | ⟨m, q, hq, hs⟩
          · rw [record.claimQueue] at hq
            exact (fit.queued _ hq).2 ⟨l, r, hr, rfl⟩
          · exact fit.lanes.lanesDiffer l m (lane m q hq).1 r hr q (lane m q hq).2 hs.symm
        rw [record.others i other]
        exact hc }
  exact k.legal h station.trans (record.map ▸ record.lanes ▸ fit.lanes.release hr he)

/-- A lane that counts a clean CLAIM (R92). -/
theorem claimsLegal_countLane {s : State} (h : ClaimsLegal s) {l : LaneNo} {r r' : Lane} (hr : s.lanes[l] = some r)
    (stream : r'.stream = r.stream) (slot : r'.slot = r.slot) (clean : r'.cleanCount < Config.probeCycles) :
    ClaimsLegal (s.setLane l (some r')) := by
  have k : ClaimsFewer s (s.setLane l (some r')) :=
    { queue := List.Sublist.refl _
      laned := fun m q hq => by
        rw [State.setLane_get] at hq
        split at hq
        · rename_i hlm
          cases hq
          exact ⟨r, hlm ▸ hr, stream.symm, fun _ => clean⟩
        · exact ⟨q, hq, rfl, id⟩
      claiming := fun _ _ => id }
  exact k.legal h id ((LaneLaws.of_legal h).count hr slot stream)

theorem State.claimOutcome_claims {s : State} (h : ClaimsLegal s) (k : SlotNo) (o : Outcome) :
    ClaimsLegal (s.claimOutcome k o) := by
  have station := congrArg StationView.station (s.claimOutcome_stationView k o)
  revert station
  cases hl : s.laneOfSlot k with
  | none => rw [State.claimOutcome_discarded hl]; exact fun _ => h
  | some p =>
    obtain ⟨l, r⟩ := p
    have hr := State.laneOfSlot_some hl
    simp only [State.claimOutcome, hl]
    split
    · split
      · exact fun _ => claimsLegal_countLane h hr rfl rfl ‹_›
      · have won : OneRecord r.stream ((s.setLane l none).setEntry r.slot (.mine r.stream 0 false)) (s.winSlot l r) :=
          .set rfl rfl rfl rfl
        exact fun station => claimsLegal_endProbe h hr (e := .mine r.stream 0 false) (fun _ _ => nofun) station
          (won.trans (State.goLive_record _ _ _))
    · have lost : OneRecord r.stream ((s.setLane l none).setEntry r.slot (.held none 0)) (s.loseProbe l r) :=
        .set rfl rfl rfl rfl
      exact fun station => claimsLegal_endProbe h hr (e := .held none 0) (fun _ _ => nofun) station
        (lost.trans (State.limitAttempts_record _ _))

/-! ## The close of a stream (R98, R116, R117) -/

theorem MapEntry.closed_probe {i j : StreamNo} {l : LaneNo} {e : MapEntry} :
    e.closed i = .probe l j ↔ e = .probe l j ∧ j ≠ i := by
  cases e with
  | probe m k =>
    by_cases hk : k = i
    · simp only [MapEntry.closed, if_pos hk]
      exact ⟨nofun, fun ⟨he, hj⟩ => absurd hk (by cases he; exact hj)⟩
    · simp only [MapEntry.closed, if_neg hk]
      exact ⟨fun he => ⟨he, by cases he; exact hk⟩, And.left⟩
  | _ => simp [MapEntry.closed]

/-- What the close of a stream leaves of the claims: those of the others (R98, R116). -/
structure ClosesClaims (i : StreamNo) (s t : State) : Prop where
  claimQueue : t.claimQueue = s.claimQueue.filter (· ≠ i)
  lanes : ∀ l : LaneNo, t.lanes[l] = laneWithout i s.lanes[l]
  entries : ∀ k : SlotNo, t.map[k] = s.map[k].closed i
  others : ∀ j : StreamNo, j ≠ i → t.streams[j] = s.streams[j]
  closed : t.streams[i].state ≠ .claiming

theorem State.closeStream_closes {s : State} (h : ClaimsFit s) (i : StreamNo) : ClosesClaims i s (s.closeStream i) := by
  rw [State.closeStream_eq ⟨h.lanes.lanesProbe, h.lanes.probesLaned⟩]
  refine ⟨rfl, fun l => Vector.getElem_ofFn l.isLt, fun k => Vector.getElem_ofFn k.isLt, fun j hj => ?_, ?_⟩
  · rw [State.withWork_streams, getElem_set_fin, if_neg (Ne.symm hj)]
  · rw [State.withWork_streams, getElem_set_fin, if_pos rfl, Stream.closed]
    split <;> exact nofun

namespace ClosesClaims

variable {i : StreamNo} {s t : State}

theorem fewer (k : ClosesClaims i s t) : ClaimsFewer s t where
  queue := k.claimQueue ▸ List.filter_sublist
  laned l r hr := ⟨r, (mem_laneWithout.mp (k.lanes l ▸ hr)).1, rfl, id⟩
  claiming j hj hc := by
    have other : j ≠ i := by
      rcases hj with hq | ⟨l, r, hr, rfl⟩
      · rw [k.claimQueue] at hq
        exact of_decide_eq_true (List.mem_filter.mp hq).2
      · exact (mem_laneWithout.mp (k.lanes l ▸ hr)).2
    rw [k.others j other]
    exact hc

theorem laneLaws (k : ClosesClaims i s t) (h : LaneLaws s.map s.lanes) : LaneLaws t.map t.lanes where
  lanesProbe l r hr := by
    obtain ⟨hr, hi⟩ := mem_laneWithout.mp (k.lanes l ▸ hr)
    exact (k.entries r.slot).trans (MapEntry.closed_probe.mpr ⟨h.lanesProbe l r hr, hi⟩)
  probesLaned m l j hm := by
    obtain ⟨hm, hj⟩ := MapEntry.closed_probe.mp ((k.entries m).symm.trans hm)
    obtain ⟨r, hr, hs, rfl⟩ := h.probesLaned m l j hm
    exact ⟨r, k.lanes l ▸ mem_laneWithout.mpr ⟨hr, hj⟩, hs, rfl⟩
  lanesDiffer l m hlm r hr q hq :=
    h.lanesDiffer l m hlm r (mem_laneWithout.mp (k.lanes l ▸ hr)).1 q (mem_laneWithout.mp (k.lanes m ▸ hq)).1

end ClosesClaims

/-! ## STOP (R34, R35) -/

/-- A STOP ends the claims of a stream, and no stream comes to be CLAIMING by it. -/
theorem State.stopStream_claims {s : State} (h : ClaimsFit s) (i : StreamNo) :
    ClaimsFit (s.stopStream i) ∧ (s.stopStream i).streams[i].state ≠ .claiming ∧
      ∀ j : StreamNo, j ≠ i → (s.stopStream i).streams[j] = s.streams[j] := by
  have closes := State.closeStream_closes h i
  have closed := closes.fewer.fit h (closes.laneLaws h.lanes)
  unfold State.stopStream
  split
  · exact ⟨closed, closes.closed, closes.others⟩
  · exact ⟨closed, closes.closed, closes.others⟩
  · rename_i hs
    have ended : (s.closeFailed i).streams = s.streams.set i
        { s.streams[i] with queue := [], state := .idle, failure := none } := by rw [State.closeFailed_eq]; rfl
    refine ⟨(State.closeFailed_stand hs).fit h, ?_, fun j hj => ?_⟩
    · rw [ended, getElem_set_fin, if_pos rfl]; exact nofun
    · rw [ended, getElem_set_fin, if_neg (Ne.symm hj)]
  · rename_i hs; exact ⟨h, by rw [hs]; exact nofun, fun _ _ => rfl⟩
  · rename_i hs; exact ⟨h, by rw [hs]; exact nofun, fun _ _ => rfl⟩

theorem State.foldl_stopStream_claims (es : List StreamNo) {s : State} (h : ClaimsFit s) :
    ClaimsFit (es.foldl State.stopStream s) ∧
      ∀ j : StreamNo, j ∈ es ∨ s.streams[j].state ≠ .claiming →
        (es.foldl State.stopStream s).streams[j].state ≠ .claiming := by
  induction es generalizing s with
  | nil => exact ⟨h, fun j hj => hj.resolve_left List.not_mem_nil⟩
  | cons i es ih =>
    obtain ⟨fit, ended, others⟩ := State.stopStream_claims h i
    obtain ⟨all, none⟩ := ih fit
    refine ⟨all, fun j hj => none j ?_⟩
    by_cases hji : j = i
    · exact .inr (hji ▸ ended)
    · rw [others j hji]
      exact hj.imp_left fun hm => (List.mem_cons.mp hm).resolve_left hji

/-- A STOP leaves no claim, since only a CLAIMING stream has one (R83). -/
theorem State.stopStreams_claims {s : State} (h : ClaimsFit s) : ClaimsLegal s.stopStreams := by
  obtain ⟨fit, none⟩ := State.foldl_stopStream_claims allStreams h
  exact claimsLegal_iff.mpr ⟨fit, fun _ => fit.unclaimed fun i => none i (.inl (mem_allStreams i))⟩

end Sys2Proof.Machine
end

section
/-! PROOF. Every command and every step keeps the law of the claim queue and the lanes: O56. -/

namespace Sys2Proof.Machine

open Sys2Proof.Safety

/-! ## Stations that leave the bus (R31 to R39) -/

theorem State.arriveReady_noClaims (s : State) (cause : Cause) : NoClaims (s.arriveReady cause) := by
  rw [State.arriveReady_eq]
  exact ⟨rfl, no_lane, fun k l i hk => nomatch (no_entry k).symm.trans hk⟩

theorem State.timelineDrop_noClaims (s : State) : NoClaims s.timelineDrop := by
  refine ⟨rfl, fun l => ?_, fun k l i hk => ?_⟩
  · exact State.emptyClaims_lane s.settleTransit l
  · exact nomatch (State.clearMap_get s.settleTransit.emptyClaims k).symm.trans hk

theorem State.checkLeft_claims {s : State} (h : ClaimsLegal s) : ClaimsLegal s.checkLeft := by
  unfold State.checkLeft
  split
  · exact (s.arriveReady_noClaims .left).legal
  · exact h

theorem State.loseSync_claims (s : State) : ClaimsLegal s.loseSync := by
  have dropped := s.abandonFrame.timelineDrop_noClaims
  have listens : NoClaims (s.abandonFrame.timelineDrop.leaveTimeline.startTimer.enter .listen .holdover) :=
    ⟨dropped.claimQueue, dropped.lanes, dropped.entries⟩
  exact ((State.postAll_stand _ _).noClaims listens).legal

theorem State.loseSyncLeaving_claims (s : State) : ClaimsLegal s.loseSyncLeaving :=
  ((State.postAll_stand _ _).noClaims (s.timelineDrop.arriveReady_noClaims .holdover)).legal

/-! ## The cycle end (R29 to R32) -/

theorem State.countSettle_stand (s : State) : ClaimsStand s s.countSettle := by
  unfold State.countSettle
  split
  · split
    · exact .view rfl
    · exact ⟨fun _ => rfl, rfl, rfl, fun _ => .inl rfl, fun _ => id⟩
  · exact .refl s

theorem State.countHoldover_claims {s : State} (h : ClaimsLegal s) : ClaimsLegal s.countHoldover := by
  unfold State.countHoldover
  split
  · exact s.countSettle_stand.legal h
  · split
    · have counted : ClaimsStand s { s with holdover := s.holdover + 1 } := .view rfl
      exact (counted.trans (State.countSettle_stand _)).legal h
    · split
      · exact s.loseSyncLeaving_claims
      · exact s.loseSync_claims

theorem State.endCycle_claims {s : State} (h : ClaimsLegal s) : ClaimsLegal s.endCycle := by
  rcases s.endCycle_cases with he | he <;> rw [he]
  · exact State.countHoldover_claims (s.receiveCycleEnd_stand.legal h)
  · exact (State.receiveCycleEnd_stand _).legal (State.countHoldover_claims h)

/-! ## Slot occurrences and beacon positions (R10, R45, R46) -/

theorem State.takeOutcome_claims {s : State} (h : ClaimsLegal s) (k : SlotNo) (f : Frame) (o : Outcome) :
    ClaimsLegal (s.takeOutcome k f o) := by
  unfold State.takeOutcome
  split
  · exact State.claimOutcome_claims h k o
  · cases o with
    | clean => exact (s.deliverTransit_stand.trans (State.clearConflict_stand _ k)).legal h
    | collided => exact (s.settleTransit_stand.trans (State.raiseConflict_stand _ k)).legal h
  · cases o with
    | clean => exact (s.clearConflict_stand k).legal h
    | collided => exact (s.raiseConflict_stand k).legal h
  · exact (s.finalSent_stand k).legal h
  · exact h

theorem State.endOwnSlot_claims {s : State} (h : ClaimsLegal s) (t : Timeline) (k : SlotNo) (x : Transmission) :
    ClaimsLegal (s.endOwnSlot t k x) := by
  have recorded (o : Outcome) : ClaimsStand s (s.closeDivision.recordOutcome k o) := by cases o <;> exact .view rfl
  have taken (o : Outcome) : ClaimsLegal
      (((s.closeDivision.recordOutcome k o).takeOutcome k x.frame o).nextIs (Boundary.afterSlot k)) :=
    (State.nextIs_stand _ _).legal (State.takeOutcome_claims ((recorded o).legal h) k x.frame o)
  dsimp only [State.endOwnSlot]
  split
  · exact State.checkLeft_claims (taken _)
  · exact taken _

theorem State.endHeardSlot_stand (s : State) (t : Timeline) (k : SlotNo) : ClaimsStand s (s.endHeardSlot t k) := by
  have recorded : ClaimsStand s (s.closeDivision.recordClass k (s.slotClass t k)) :=
    .view (State.recordClass_view _ k (s.slotClass t k))
  exact ((recorded.trans (State.observeSlot_stand _ k _)).trans (.view (State.receiveClass_view _ k t.cycle _))).trans
    (State.nextIs_stand _ _)

theorem State.closePosition_claims {s : State} (h : ClaimsLegal s) (t : Timeline) (p : Position) :
    ClaimsLegal (s.closePosition t p) := by
  have closed : ClaimsStand s s.closeDivision := .view rfl
  unfold State.closePosition
  split
  · exact State.checkLeft_claims
      (((closed.trans (State.beaconOutcome_stand _ _)).trans (State.nextIs_stand _ _)).legal h)
  · exact ((closed.trans (State.takePosition_stand _ _)).trans (State.nextIs_stand _ _)).legal h

/-! ## Joining and founding a timeline (R27, R28, R33, R54) -/

theorem State.adopt_stand {s : State} (hs : s.station = .listen) (b : BeaconFrame) (firstBit lastBit : Time) :
    ClaimsStand s (s.adopt b firstBit lastBit) := by
  have joined : ClaimsStand s
      (((s.restartReceiver lastBit).joinTimeline b firstBit).enter .settle .adopt).countCleanBeacon :=
    ⟨fun ha => (nomatch hs.symm.trans ha), rfl, rfl, fun _ => .inl rfl, fun _ => id⟩
  exact (joined.trans (State.mergeSummary_stand _ _)).trans (State.checkAddress_stand _ _)

theorem State.mergeOnto_claims (s : State) (b : BeaconFrame) (firstBit : Time) : ClaimsLegal (s.mergeOnto b firstBit) := by
  have dropped := s.timelineDrop_noClaims
  have joined : NoClaims ((s.timelineDrop.joinTimeline b firstBit).enter .settle .merge) :=
    ⟨dropped.claimQueue, dropped.lanes, dropped.entries⟩
  have counted (u : State) : ClaimsStand u u.countCleanBeacon := .view rfl
  exact ((((State.postAll_stand _ _).trans (counted _)).trans (State.mergeSummary_stand _ _)).trans
    (State.checkAddress_stand _ _)).noClaims joined |>.legal

theorem State.mergeLeaving_claims (s : State) (b : BeaconFrame) : ClaimsLegal (s.mergeLeaving b) := by
  have arrived := (State.postAll_stand _ (s.closingStreams.map .streamClosed)).noClaims
    (s.timelineDrop.arriveReady_noClaims .merge)
  unfold State.mergeLeaving
  split
  · exact ((State.post_stand _ _).noClaims arrived).legal
  · exact arrived.legal

theorem State.found_stand (s : State) (time : Time) : ClaimsStand s (s.found time) := by
  have cleared : ClaimsStand s { s.clearActivity with
      timeline := some (s.foundedTimeline time), holdover := 0, settle := 0, listenTimer := .stopped
      reports := Reports.empty } := .view rfl
  have entered (u : State) : ClaimsStand u (u.enter .active .found) :=
    ⟨fun _ => rfl, rfl, rfl, fun _ => .inl rfl, fun _ => id⟩
  exact ((cleared.trans (State.fillMap_stand _)).trans (entered _)).trans (.view (State.drawPosition_view _))

theorem State.sortBeacon_claims {s : State} (h : ClaimsLegal s) (t : Timeline) (b : BeaconFrame) (firstBit : Time) :
    ClaimsLegal (s.sortBeacon t b firstBit) := by
  have counted : ClaimsStand s s.countForeign := .view rfl
  unfold State.sortBeacon
  split
  · exact h
  · split
    · split
      · exact s.mergeLeaving_claims b
      · exact s.mergeOnto_claims b firstBit
    · exact (counted.trans (State.checkAddress_stand _ _)).legal h

theorem State.takeReport_claims {s : State} (h : ClaimsLegal s) (r : FrameReport) : ClaimsLegal (s.takeReport r) := by
  have gathered : ClaimsLegal (if s.station.onTimeline then s.gatherFrame r else s) := by
    split
    · exact ClaimsStand.of_view h rfl
    · exact h
  unfold State.takeReport State.handBeacon
  generalize (if s.station.onTimeline then s.gatherFrame r else s) = u at gathered
  split
  · split
    · exact (State.adopt_stand ‹_› _ _ _).legal gathered
    · split
      · exact State.sortBeacon_claims gathered _ _ _
      · exact gathered
  · exact gathered
  · exact gathered

/-! ## Requests (R22 to R36, R107, R108, R116) -/

theorem State.configure_stand (address : Byte) (seed : Half) (f b : Bool) (s : State) :
    ClaimsStand s (State.configure address seed f b s).2 := by
  unfold State.configure
  split
  · rename_i hs
    split
    · exact .refl s
    · exact ⟨fun ha => (nomatch hs.symm.trans ha), rfl, rfl, fun _ => .inl rfl, fun _ => id⟩
  · exact .refl s

theorem State.startRequest_stand (s : State) : ClaimsStand s s.startRequest.2 := by
  unfold State.startRequest
  split
  · rename_i hs
    have switched : ClaimsStand s s.switchOnReceiver := .view s.switchOnReceiver_view
    exact ⟨fun ha => (nomatch hs.symm.trans ha), switched.claimQueue, switched.lanes, switched.entries,
      switched.claiming⟩
  · exact .refl s

theorem State.stopActive_claims {s : State} (h : ClaimsLegal s) : ClaimsLegal s.stopActive := by
  obtain ⟨fit, -⟩ := claimsLegal_iff.mp h
  have entered : ClaimsFit (s.enter .leaving .stop) := ⟨fit.lanes, fit.queueOnce, fit.queued, fit.laned⟩
  have stopped : ClaimsLegal { (s.enter .leaving .stop).stopStreams with drawnPosition := none } :=
    ClaimsStand.of_view (State.stopStreams_claims entered) rfl
  unfold State.stopActive
  dsimp only
  split
  · exact stopped
  · exact State.checkLeft_claims stopped

theorem State.stopRequest_claims {s : State} (h : ClaimsLegal s) : ClaimsLegal s.stopRequest.2 := by
  have early : ClaimsLegal s.stopEarly := State.stopStreams_claims (s.arriveReady_noClaims .stop).fit
  unfold State.stopRequest
  split
  · exact h
  · exact h
  · rw [State.accept_state]; exact early
  · rw [State.accept_state]; exact early
  · rw [State.accept_state]; exact State.stopActive_claims h
  · exact h

theorem State.modStream_stand (s : State) (i : StreamNo) {f : Stream → Stream}
    (h : s.streams[i].state = .claiming → (f s.streams[i]).state = .claiming) : ClaimsStand s (s.modStream i f) :=
  .record (i := i) (r := f s.streams[i]) rfl h

theorem State.openTx_stand (stream tag wanted : Byte) (s : State) :
    ClaimsStand s (State.openTx stream tag wanted s).2 := by
  unfold State.openTx
  split
  · exact .refl s
  · split
    · exact .refl s
    · split
      · exact .refl s
      · split
        · exact .refl s
        · split
          · exact .refl s
          · rw [State.accept_state]
            exact s.modStream_stand _ fun _ => rfl

theorem State.closeStream_claims {s : State} (h : ClaimsLegal s) (i : StreamNo) : ClaimsLegal (s.closeStream i) := by
  obtain ⟨fit, -⟩ := claimsLegal_iff.mp h
  have closes := State.closeStream_closes fit i
  have view := s.closeStream_stationView i
  have station : (s.closeStream i).station = s.station := (StationView.mk.inj view).1
  exact closes.fewer.legal h (fun hs => station.trans hs) (closes.laneLaws fit.lanes)

theorem State.closeTx_claims {s : State} (h : ClaimsLegal s) (stream : Byte) :
    ClaimsLegal (State.closeTx stream s).2 := by
  unfold State.closeTx
  split
  · exact h
  · split
    · exact h
    · exact h
    · rw [State.accept_state]; exact State.closeStream_claims h _
    · rw [State.accept_state]; exact State.closeStream_claims h _
    · rw [State.accept_state]; exact (State.closeFailed_stand ‹_›).legal h

theorem State.push_stand (stream : Byte) (payload : Payload) (s : State) :
    ClaimsStand s (State.push stream payload s).2 := by
  unfold State.push
  split
  · exact .refl s
  · split
    · exact .refl s
    · split
      · exact .refl s
      · split
        · exact .refl s
        · rename_i b _
          rw [State.accept_state]
          have given : ClaimsStand s (s.allocate b) := .view rfl
          exact given.trans (State.modStream_stand _ _ id)

theorem RequestCode.serve_claims {s : State} (h : ClaimsLegal s) (c : RequestCode) (args : List Byte) :
    ClaimsLegal (c.serve args s).2 := by
  have same {t : State} (ht : t = s) : ClaimsLegal t := ht ▸ h
  cases c with
  | configure => exact (State.configure_stand ..).legal h
  | start => exact s.startRequest_stand.legal h
  | stop => exact State.stopRequest_claims h
  | reset => exact h
  | openTx => exact (State.openTx_stand ..).legal h
  | closeTx => exact State.closeTx_claims h _
  | push => exact (State.push_stand ..).legal h
  | subscribe => exact ClaimsStand.of_view h (State.subscribe_view ..)
  | unsubscribe => exact ClaimsStand.of_view h (State.unsubscribe_view ..)
  | pop => exact same (State.pop_state ..)
  | readEvent => exact same s.readEvent_state
  | readStation => exact h
  | readStream => exact same (State.readStream_state ..)
  | readSub => exact same (State.readSub_state ..)
  | readSlot => exact same (State.readSlot_state ..)

/-! ## The host link (R163, R167, R170) -/

theorem State.deviceReset_claims (s : State) : ClaimsLegal s.deviceReset :=
  ClaimsStand.of_view Proofs.resetStateIsLegal.claims rfl

theorem State.taken_claims {s : State} {code : Byte} {serve : State → Reply × State} (h : ClaimsLegal (serve s).2) :
    ClaimsLegal (s.taken code serve) :=
  (ClaimsStand.view (s := (serve s).2) (s.taken_view code serve)).legal h

theorem State.request_claims {s : State} (h : ClaimsLegal s) {code : Byte} {args : List Byte}
    {serve : State → Reply × State} (served : ClaimsLegal (serve s).2) : ClaimsLegal (s.request code args serve) := by
  rcases s.request_cases code args serve with ⟨-, -, he⟩ | ⟨-, he⟩ <;> rw [he]
  · exact State.taken_claims served
  · exact h

theorem State.takeByte_claims {s : State} (h : ClaimsLegal s) (b : Byte) : ClaimsLegal (s.takeByte b) := by
  rcases s.takeByte_cases b with ⟨l, he⟩ | ⟨code, serve, he, hserve⟩ | ⟨-, he⟩ | ⟨k, n, -, -, he⟩ <;> rw [he]
  · exact ClaimsStand.of_view h rfl
  · refine State.taken_claims ?_
    rcases hserve with rfl | ⟨c, args, rfl⟩
    · exact h
    · exact c.serve_claims h args
  · exact s.deviceReset_claims
  · exact ClaimsStand.of_view h (s.finishTransaction_view k)

/-! ## Every command -/

theorem State.unlessHeld_claims {s : State} (h : ClaimsLegal s) {f : State → State} (k : ClaimsLegal (f s)) :
    ClaimsLegal (s.unlessHeld f) := by
  rcases s.unlessHeld_cases f with ⟨-, he⟩ | ⟨-, he⟩ <;> rw [he]
  · exact h
  · exact k

theorem State.atEvent_claims {s : State} (h : ClaimsLegal s) {b : Boundary} {f : Timeline → State → State}
    (k : ∀ t, ClaimsLegal (f t s)) : ClaimsLegal (s.atEvent b f) := by
  rcases s.atEvent_cases b f with ⟨t, -, -, -, -, he⟩ | he <;> rw [he]
  · exact k t
  · exact h

theorem execSlotPhaseStart_claims {s t : State} (h : ClaimsLegal s) (he : execSlotPhaseStart s = .next t) :
    ClaimsLegal t := by
  cases he
  refine State.atEvent_claims h fun u => (State.nextIs_stand _ _).legal ?_
  split
  · rename_i hs
    obtain ⟨fit, -⟩ := claimsLegal_iff.mp h
    exact (State.serveClaims_claims fit).legal ((congrArg StationView.station s.serveClaims_stationView).trans hs)
  · exact h

theorem execSlotOccurrenceEnd_claims {k : SlotNo} {s t : State} (h : ClaimsLegal s)
    (he : execSlotOccurrenceEnd k s = .next t) : ClaimsLegal t := by
  cases he
  refine State.atEvent_claims h fun u => ?_
  split
  · exact h
  · split
    · exact State.endOwnSlot_claims h u k _
    · exact (s.endHeardSlot_stand u k).legal h

theorem execCarrier_claims {time : Time} {s t : State} (h : ClaimsLegal s)
    (he : execCarrierStart time s = .next t ∨ execCarrierEnd time s = .next t) : ClaimsLegal t := by
  rcases he with he | he <;> cases he
  · split
    · exact h
    · split <;> exact ClaimsStand.of_view h rfl
  · split
    · exact h
    · split
      · exact ClaimsStand.of_view h ((State.startTimer_view _).trans ((State.hears_view _ time).trans rfl))
      · split <;> exact ClaimsStand.of_view h rfl

theorem execFrameReport_claims {pattern : Half} {bytes : List Byte} {firstBit lastBit : Time} {s t : State}
    (h : ClaimsLegal s) (he : execFrameReport pattern bytes firstBit lastBit s = .next t) : ClaimsLegal t := by
  cases he
  refine State.unlessHeld_claims h ?_
  have heard : ClaimsLegal (s.hears lastBit) := ClaimsStand.of_view h (s.hears_view lastBit)
  split
  · split
    · exact heard
    · exact State.takeReport_claims heard _
  · exact h

theorem execJamReport_claims {time : Time} {s t : State} (h : ClaimsLegal s) (he : execJamReport time s = .next t) :
    ClaimsLegal t := by
  cases he
  refine State.unlessHeld_claims h ?_
  split
  · exact ClaimsStand.of_view h rfl
  · exact ClaimsStand.of_view h (s.hears_view time)

theorem execTransmission_claims {s t : State} (h : ClaimsLegal s)
    (he : execLeadIn s = .next t ∨ execReadBackMismatch s = .next t) : ClaimsLegal t := by
  rcases he with he | he <;> cases he
  all_goals
    refine State.unlessHeld_claims h ?_
    split <;> exact ClaimsStand.of_view h rfl

theorem execListenTimerExpiry_claims {time : Time} {s t : State} (h : ClaimsLegal s)
    (he : execListenTimerExpiry time s = .next t) : ClaimsLegal t := by
  cases he
  refine State.unlessHeld_claims h ?_
  split
  · split
    · exact (s.found_stand time).legal h
    · exact ClaimsStand.of_view h s.startTimer_view
  · exact h

theorem execConsumingReadCommit_claims {s t : State} (h : ClaimsLegal s) (he : execConsumingReadCommit s = .next t) :
    ClaimsLegal t := by
  cases he
  refine State.unlessHeld_claims h ?_
  split
  · split
    · exact ClaimsStand.of_view h (s.finishTransaction_view _)
    · exact h
  all_goals exact h

theorem execPins_claims {s t : State} (h : ClaimsLegal s)
    (he : execTransactionBegin s = .next t ∨ execTransactionEnd s = .next t ∨ execResetInputAsserted s = .next t ∨
      execResetInputReleased s = .next t) : ClaimsLegal t := by
  rcases he with he | he | he | he <;> cases he
  · split
    · exact h
    · split <;> exact ClaimsStand.of_view h rfl
  · split
    · exact h
    · split <;> exact ClaimsStand.of_view h rfl
  · split
    · exact h
    · exact ClaimsStand.of_view s.deviceReset_claims rfl
  · split
    · exact ClaimsStand.of_view h rfl
    · exact h

theorem exec_claims {c : Instr} {s t : State} (h : ClaimsLegal s) (he : exec c s = .next t) : ClaimsLegal t := by
  have request {code : Byte} {args : List Byte} {serve : State → Reply × State} (k : ClaimsStand s (serve s).2) :
      ClaimsLegal (s.request code args serve) := State.request_claims h (k.legal h)
  have same {t : State} (ht : t = s) : ClaimsStand s t := ht ▸ .refl s
  cases c with
  | configure => cases he; exact request (State.configure_stand ..)
  | start => cases he; exact request s.startRequest_stand
  | stop => cases he; exact State.request_claims h (State.stopRequest_claims h)
  | reset =>
    cases he
    refine State.unlessHeld_claims h ?_
    split
    · exact s.deviceReset_claims
    · exact h
  | openTx => cases he; exact request (State.openTx_stand ..)
  | closeTx => cases he; exact State.request_claims h (State.closeTx_claims h _)
  | push => cases he; exact request (State.push_stand ..)
  | subscribe => cases he; exact request (.view (State.subscribe_view ..))
  | unsubscribe => cases he; exact request (.view (State.unsubscribe_view ..))
  | pop => cases he; exact request (same (State.pop_state ..))
  | readEvent => cases he; exact request (same s.readEvent_state)
  | readStation => cases he; exact request (.refl s)
  | readStream => cases he; exact request (same (State.readStream_state ..))
  | readSub => cases he; exact request (same (State.readSub_state ..))
  | readSlot => cases he; exact request (same (State.readSlot_state ..))
  | unknownCode =>
    cases he
    split
    · exact request (.refl s)
    · exact h
  | transactionBegin => exact execPins_claims h (.inl he)
  | transactionEnd => exact execPins_claims h (.inr (.inl he))
  | consumingReadCommit => exact execConsumingReadCommit_claims h he
  | resetInputAsserted => exact execPins_claims h (.inr (.inr (.inl he)))
  | resetInputReleased => exact execPins_claims h (.inr (.inr (.inr he)))
  | cycleStart => cases he; exact State.atEvent_claims h fun u => ClaimsStand.of_view h (State.drawPosition_view _)
  | beaconPosition p =>
    cases he
    have opened : ClaimsStand s s.openDivision := .view rfl
    exact State.atEvent_claims h fun u =>
      ((opened.trans (State.openPosition_stand _ u p)).trans (State.nextIs_stand _ _)).legal h
  | beaconPositionClose p =>
    cases he
    refine State.atEvent_claims h fun u => ?_
    split
    · exact h
    · exact State.closePosition_claims h u p
  | slotPhaseStart => exact execSlotPhaseStart_claims h he
  | slotOccurrenceBegin k =>
    cases he
    have opened : ClaimsStand s s.openDivision := .view rfl
    exact State.atEvent_claims h fun u =>
      ((opened.trans (State.beginSlot_stand _ k)).trans (State.nextIs_stand _ _)).legal h
  | leadIn => exact execTransmission_claims h (.inl he)
  | slotOccurrenceEnd => exact execSlotOccurrenceEnd_claims h he
  | cycleEnd =>
    cases he
    exact State.atEvent_claims h fun u =>
      ClaimsStand.of_view (State.endCycle_claims ((s.nextIs_stand .cycleStart).legal h)) rfl
  | carrierStart => exact execCarrier_claims h (.inl he)
  | carrierEnd => exact execCarrier_claims h (.inr he)
  | frameReport => exact execFrameReport_claims h he
  | jamReport => exact execJamReport_claims h he
  | readBackMismatch => exact execTransmission_claims h (.inr he)
  | listenTimerExpiry => exact execListenTimerExpiry_claims h he
  | byteComplete b => cases he; exact State.unlessHeld_claims h (State.takeByte_claims h b)

end Sys2Proof.Machine

namespace Sys2Proof.Proofs

open Sys2Proof.Machine Sys2Proof.Safety

/-- Settles O56: neither the waiting commands nor the listen timer is a part of the claims, and every command keeps
their law. -/
theorem stepKeepsClaimLaw : Obligations.StepKeepsClaimLaw := by
  intro s t h he
  unfold step at he
  split at he
  · cases he
    exact ClaimsStand.of_view h rfl
  · rename_i c rest _
    have unqueued : ClaimsStand s { s with pending := rest } := .view rfl
    exact exec_claims (unqueued.legal h) he

end Sys2Proof.Proofs
end

section
/-! PROOF. The begin of a slot occurrence, by the entry of its slot: O34. -/

namespace Sys2Proof.Machine

open Sys2Proof.Safety

theorem State.beginSlot_timeline (s : State) (k : SlotNo) : (s.beginSlot k).timeline = s.timeline := by
  unfold State.beginSlot
  split
  · split <;> rfl
  · split
    · unfold State.sendOwned
      split
      · rfl
      · split <;> rfl
    · rfl
  all_goals rfl

theorem exec_slotOccurrenceBegin {s : State} {k : SlotNo} {t : Timeline} (due : Due s (.slotBegin k) t) :
    exec (.slotOccurrenceBegin k) s = .next
      { s.openDivision.beginSlot k with timeline := nextDue t (.slotEnd k) } := by
  obtain ⟨held, on, ht, hb⟩ := due
  refine congrArg Host.Outcome.next ((State.atEvent_due held on ht hb).trans (State.nextIs_eq ?_ _))
  exact (s.openDivision.beginSlot_timeline k).trans ht

section BeginSlot

variable {s : State} {k : SlotNo} {i : StreamNo}

theorem State.beginSlot_probe {l : LaneNo} (h : s.map[k] = .probe l i) (active : s.station = .active) :
    s.beginSlot k = s.handOver (s.claimFrame i) := by
  simp only [State.beginSlot, h, active, if_true]

theorem State.beginSlot_mine {c : Nat} {f : Bool} (h : s.map[k] = .mine i c f)
    (hs : s.station = .active ∨ s.station = .leaving) : s.beginSlot k = s.sendOwned k i f := by
  simp only [State.beginSlot, h, hs, if_true]

theorem State.beginSlot_unowned (probe : ∀ (l : LaneNo) (i : StreamNo), s.map[k] ≠ .probe l i)
    (mine : ∀ (i : StreamNo) (c : Nat) (f : Bool), s.map[k] ≠ .mine i c f) : s.beginSlot k = s := by
  unfold State.beginSlot
  split
  · exact absurd ‹_› (probe _ _)
  · exact absurd ‹_› (mine _ _ _)
  all_goals rfl

theorem State.sendOwned_data {b : Block} {rest : List Block} (h : s.streams[i].queue = b :: rest) :
    s.sendOwned k i false = { s.handOver (s.streamFrame i .data b.data) with
      streams := s.streams.set i { s.streams[i] with queue := rest }
      inTransit := some { stream := i, slot := k, block := b, disposal := .returnToQueue } } := by
  have sent : s.sendOwned k i false = s.sendData i k b := by simp only [State.sendOwned, h]; rfl
  have tail : s.streams[i].queue.tail = rest := congrArg List.tail h
  rw [sent, ← tail]
  rfl

theorem State.sendOwned_fill (h : s.streams[i].queue = []) : s.sendOwned k i false = s.sendFill i := by
  simp only [State.sendOwned, h]
  rfl

end BeginSlot

end Sys2Proof.Machine

namespace Sys2Proof.Proofs

open Sys2Proof.Machine Sys2Proof.Safety

/-- Settles O34, entry by entry: the opening of the division touches nothing that the entry's case reads. -/
theorem slotBeginHandsOverByEntry : Obligations.SlotBeginHandsOverByEntry := by
  intro s k t due
  rw [exec_slotOccurrenceBegin due]
  refine ⟨fun l i probe active => ?_, fun i c hs => ⟨fun mine => ?_, fun b rest mine queue => ?_, fun mine empty => ?_⟩,
    fun probe mine => ?_⟩
  · rw [State.beginSlot_probe (s := s.openDivision) probe active]
    rfl
  · rw [State.beginSlot_mine (s := s.openDivision) mine hs]
    rfl
  · rw [State.beginSlot_mine (s := s.openDivision) mine hs, State.sendOwned_data (s := s.openDivision) queue]
    rfl
  · rw [State.beginSlot_mine (s := s.openDivision) mine hs, State.sendOwned_fill (s := s.openDivision) empty]
    rfl
  · rw [State.beginSlot_unowned (s := s.openDivision) probe mine]
    rfl

end Sys2Proof.Proofs
end

section
/-! PROOF. The slot-phase start: who is queued before the lanes are served, and the grants in lane and queue order:
O32. -/

namespace Sys2Proof.Machine

open Sys2Proof.Safety

/-! ## The backoffs and the queue (R86, R87) -/

/-- A stream after step 1: one slot-phase start less to wait while CLAIMING (R86). -/
def Stream.waited (r : Stream) : Stream :=
  { r with backoff := if r.state = .claiming then r.backoff - 1 else r.backoff }

/-- The queue after step 2, with the streams that join in ascending number (R87). -/
def State.slotPhaseQueue (s : State) : List StreamNo :=
  s.claimQueue ++ (List.finRange 8).filter fun i =>
    s.streams[i].state == .claiming && s.streams[i].backoff - 1 == 0 && !s.claimQueue.contains i &&
      !s.laneCarries 0 i && !s.laneCarries 1 i && decide (s.streams[i].held.length < s.streams[i].wanted)

/-- The state in which step 3 finds the claim engine (R85). -/
def State.queueMet (s : State) : State :=
  { s with streams := Vector.ofFn fun i => s.streams[i].waited, claimQueue := s.slotPhaseQueue }

theorem State.countBackoffs_eq (s : State) :
    s.countBackoffs = { s with streams := Vector.ofFn fun i => s.streams[i].waited } := by
  have one (r : Stream) : (if r.state = .claiming then { r with backoff := r.backoff - 1 } else r) = r.waited := by
    unfold Stream.waited; split <;> rfl
  simp only [State.countBackoffs, State.mapStreams, one]

theorem State.mayJoin_countBackoffs (s : State) (i : StreamNo) :
    s.countBackoffs.mayJoin i = (s.streams[i].state == .claiming && s.streams[i].backoff - 1 == 0 &&
      !s.claimQueue.contains i && !s.laneCarries 0 i && !s.laneCarries 1 i &&
      decide (s.streams[i].held.length < s.streams[i].wanted)) := by
  have get : s.countBackoffs.streams[i] = s.streams[i].waited := by
    rw [State.countBackoffs_eq]; exact Vector.getElem_ofFn i.isLt
  have probing : s.countBackoffs.probing i = if s.laneCarries 0 i || s.laneCarries 1 i then 1 else 0 := rfl
  have queue : s.countBackoffs.claimQueue = s.claimQueue := s.mapStreams_claimQueue _
  rw [State.mayJoin, get, probing, queue]
  generalize s.streams[i] = r
  by_cases claiming : r.state = .claiming
  · cases s.laneCarries 0 i <;> cases s.laneCarries 1 i <;> simp [Stream.waited, claiming]
  · simp only [Stream.waited, beq_false_of_ne claiming, Bool.false_and]

theorem State.joinQueue_countBackoffs (s : State) : s.countBackoffs.joinQueue = s.queueMet := by
  have joins : s.countBackoffs.mayJoin = _ := funext s.mayJoin_countBackoffs
  rw [State.joinQueue, joins, State.countBackoffs_eq]
  rfl

theorem State.queueMet_get (s : State) (i : StreamNo) : s.queueMet.streams[i] = s.streams[i].waited :=
  Vector.getElem_ofFn i.isLt

theorem ClaimsFit.queueMet {s : State} (h : ClaimsFit s) : ClaimsFit s.queueMet := by
  have counted : ClaimsStand s s.countBackoffs := .mapStreams s fun i hc => by rw [if_pos hc]; exact hc
  exact s.joinQueue_countBackoffs ▸ State.joinQueue_claims (counted.fit h)

theorem State.queueMet_nodup {s : State} (h : ClaimsLegal s) : s.queueMet.claimQueue.Nodup :=
  let ⟨fit, _⟩ := claimsLegal_iff.mp h
  fit.queueMet.queueOnce

theorem exec_slotPhaseStart {s : State} {t : Timeline} (due : Due s .slotPhaseStart t) :
    exec .slotPhaseStart s = .next
      { (if s.station = .active then s.queueMet.serveLanes else s) with timeline := nextDue t (.slotBegin 0) } := by
  obtain ⟨held, on, ht, hb⟩ := due
  rw [← s.joinQueue_countBackoffs]
  refine congrArg Host.Outcome.next ((State.atEvent_due held on ht hb).trans (State.nextIs_eq ?_ _))
  split
  · have view := s.serveClaims_stationView
    exact (congrArg StationView.timeline view).trans ht
  · exact ht

/-! ## The deferral limit (R90) -/

theorem State.limitDeferrals_below {s : State} (h : ∀ i ∈ s.claimQueue, s.streams[i].deferral < Config.deferLimit) :
    s.limitDeferrals = s :=
  List.foldlRecOn (motive := (· = s)) s.claimQueue _ rfl fun u hu i hi => by
    rw [hu, State.limitDeferral, if_pos (h i hi)]

/-! ## The grants (R88) -/

section Grants

/-- From `s` to `t` streams at the head of the queue are granted slots, and a granted stream counts no deferral. -/
structure Grants (s t : State) : Prop where
  frame : t = { s with
    streams := t.streams, claimQueue := t.claimQueue, lanes := t.lanes, map := t.map, draws := t.draws }
  queue : t.claimQueue <:+ s.claimQueue
  streams : ∀ i : StreamNo, t.streams[i] = { s.streams[i] with
    deferral := if i ∈ s.claimQueue ∧ i ∉ t.claimQueue then 0 else s.streams[i].deferral }

variable {s t u : State} {l : LaneNo} {i : StreamNo} {rest : List StreamNo} {k : SlotNo}

theorem Grants.refl (s : State) : Grants s s :=
  ⟨rfl, List.suffix_rfl, fun i => by rw [if_neg fun h => h.2 h.1]⟩

theorem Grants.trans (h : Grants s t) (k : Grants t u) : Grants s u where
  frame := by rw [k.frame, h.frame]
  queue := k.queue.trans h.queue
  streams i := by
    rw [k.streams i, h.streams i]
    by_cases hs : i ∈ s.claimQueue <;> by_cases ht : i ∈ t.claimQueue
    · simp [hs, ht]
    · have hu : i ∉ u.claimQueue := fun hu => ht (k.queue.subset hu)
      simp [hs, ht, hu]
    · exact absurd (h.queue.subset ht) hs
    · simp [hs, ht]

theorem State.grant_grants (once : s.claimQueue.Nodup) (hq : s.claimQueue = i :: rest) (l : LaneNo) (k : SlotNo) :
    Grants s (s.drawUsed.grant l i k) := by
  have queue : (s.drawUsed.grant l i k).claimQueue = rest := congrArg List.tail hq
  refine ⟨rfl, queue ▸ hq ▸ List.suffix_cons i rest, fun j => ?_⟩
  have get : (s.drawUsed.grant l i k).streams[j] =
      if i = j then { s.streams[i] with deferral := 0 } else s.streams[j] :=
    State.modStream_get _ i j _
  rw [hq] at once
  rw [get, queue, hq]
  by_cases hj : i = j
  · subst hj
    rw [if_pos rfl, if_pos ⟨List.mem_cons_self, (List.nodup_cons.mp once).1⟩]
  · rw [if_neg hj, if_neg fun h => h.2 ((List.mem_cons.mp h.1).resolve_left (Ne.symm hj))]

theorem State.serveLane_idle (h : s.claimQueue = [] ∨ s.lanes[l].isSome = true) : s.serveLane l = s := by
  unfold State.serveLane
  split
  · rename_i hl hq
    rw [hl, hq] at h
    exact nomatch h
  all_goals rfl

theorem State.serveLane_full (h : s.freeSlots = []) (l : LaneNo) : s.serveLane l = s := by
  unfold State.serveLane
  split
  · rw [h]; rfl
  all_goals rfl

theorem State.serveLane_grant (hl : s.lanes[l] = none) (hq : s.claimQueue = i :: rest) (free : s.freeSlots ≠ []) :
    ∃ k : SlotNo, s.map[k] = .free ∧ s.serveLane l = s.drawUsed.grant l i k := by
  have drawn := s.drawn_lt (List.length_pos_iff.mpr free)
  refine ⟨s.freeSlots[s.drawn s.freeSlots.length], State.mem_freeSlots.mp (List.getElem_mem drawn), ?_⟩
  simp only [State.serveLane, hl, hq, List.getElem?_eq_getElem drawn]

theorem State.serveLane_grants (once : s.claimQueue.Nodup) (l : LaneNo) : Grants s (s.serveLane l) := by
  by_cases free : s.freeSlots = []
  · rw [State.serveLane_full free]; exact .refl s
  · cases hl : s.lanes[l] with
    | some r => rw [State.serveLane_idle (.inr (hl ▸ rfl))]; exact .refl s
    | none =>
      cases hq : s.claimQueue with
      | nil => rw [State.serveLane_idle (.inl hq)]; exact .refl s
      | cons i rest =>
        obtain ⟨k, -, hk⟩ := State.serveLane_grant hl hq free
        rw [hk]; exact State.grant_grants once hq l k

/-- An idle lane takes the head of the queue for a FREE slot, which becomes PROBE. -/
structure Granted (l : LaneNo) (i : StreamNo) (rest : List StreamNo) (k : SlotNo) (s t : State) : Prop where
  free : s.map[k] = .free
  queue : t.claimQueue = rest
  map : t.map = s.map.set k (.probe l i)
  lanes : t.lanes = s.lanes.set l (some { stream := i, slot := k, cleanCount := 0 })

theorem State.serveLane_granted (hl : s.lanes[l] = none) (hq : s.claimQueue = i :: rest) (free : s.freeSlots ≠ []) :
    ∃ k : SlotNo, Granted l i rest k s (s.serveLane l) := by
  obtain ⟨k, hk, he⟩ := State.serveLane_grant hl hq free
  rw [he]
  exact ⟨k, hk, congrArg List.tail hq, rfl, rfl⟩

namespace Granted

theorem lane (h : Granted l i rest k s t) (m : LaneNo) :
    t.lanes[m] = if l = m then some { stream := i, slot := k, cleanCount := 0 } else s.lanes[m] := by
  rw [h.lanes]; exact getElem_set_fin ..

/-- The slots that stay FREE are the others. -/
theorem free_iff (h : Granted l i rest k s t) (m : SlotNo) : t.map[m] = .free ↔ m ≠ k ∧ s.map[m] = .free := by
  rw [h.map, getElem_set_fin]
  by_cases hm : k = m
  · rw [if_pos hm]; exact ⟨nofun, fun hn => absurd hm.symm hn.1⟩
  · rw [if_neg hm]; exact ⟨fun he => ⟨Ne.symm hm, he⟩, And.right⟩

/-- Where the second lane is busy, or nobody is left in the queue, its turn changes nothing. -/
theorem alone (h : Granted 0 i rest k s (s.serveLane 0)) (h1 : s.lanes[(1 : LaneNo)].isSome = true ∨ rest = []) :
    (s.serveLane 0).serveLane 1 = s.serveLane 0 :=
  State.serveLane_idle (h1.symm.imp h.queue.trans fun busy => by rw [h.lane 1]; exact busy)

/-- Where both lanes are idle, the second takes the next in the queue if a FREE slot is left. -/
theorem second {j : StreamNo} {more : List StreamNo} (h : Granted 0 i (j :: more) k s (s.serveLane 0))
    (h1 : s.lanes[(1 : LaneNo)] = none) :
    (∃ m : SlotNo, m ≠ k ∧ s.map[m] = .free ∧
      Granted 1 j more m (s.serveLane 0) ((s.serveLane 0).serveLane 1)) ∨
    ((∀ m : SlotNo, m ≠ k → s.map[m] ≠ .free) ∧ (s.serveLane 0).serveLane 1 = s.serveLane 0) := by
  by_cases again : (s.serveLane 0).freeSlots = []
  · refine .inr ⟨fun m hm hfree => ?_, State.serveLane_full again 1⟩
    have left := State.mem_freeSlots.mpr ((h.free_iff m).mpr ⟨hm, hfree⟩)
    exact absurd (again ▸ left) List.not_mem_nil
  · have idle : (s.serveLane 0).lanes[(1 : LaneNo)] = none := by rw [h.lane 1]; exact h1
    obtain ⟨m, granted⟩ := State.serveLane_granted idle h.queue again
    obtain ⟨other, free⟩ := (h.free_iff m).mp granted.free
    exact .inl ⟨m, other, free, granted⟩

end Granted

theorem State.freeSlots_ne_nil {s : State} (h : ∃ k : SlotNo, s.map[k] = .free) : s.freeSlots ≠ [] :=
  h.elim fun _ hk => List.ne_nil_of_mem (State.mem_freeSlots.mpr hk)

theorem State.freeSlots_eq_nil {s : State} (h : ∀ k : SlotNo, s.map[k] ≠ .free) : s.freeSlots = [] :=
  List.eq_nil_iff_forall_not_mem.mpr fun k hk => h k (State.mem_freeSlots.mp hk)

/-- Where the map holds a FREE entry the lanes are served in their order, and no deferral limit is reached (R88, R90). -/
theorem State.serveLanes_grants (once : s.claimQueue.Nodup)
    (below : ∀ i : StreamNo, s.streams[i].deferral < Config.deferLimit) (free : s.freeSlots ≠ []) :
    s.serveLanes = (s.serveLane 0).serveLane 1 ∧ Grants s ((s.serveLane 0).serveLane 1) := by
  have first := State.serveLane_grants once 0
  have both := first.trans (State.serveLane_grants (once.sublist first.queue.sublist) 1)
  refine ⟨?_, both⟩
  rw [State.serveLanes, if_neg free]
  refine State.limitDeferrals_below fun i _ => ?_
  rw [both.streams i]
  change ite _ _ _ < _
  split
  · decide
  · exact below i

end Grants

end Sys2Proof.Machine

namespace Sys2Proof.Proofs

open Sys2Proof.Machine Sys2Proof.Safety

/-- Settles O32, lane by lane: outside ACTIVE nothing is served, and in ACTIVE each clause computes what the two lanes'
turns make of the queue. -/
theorem slotPhaseStartGrantsLanesInOrder : Obligations.SlotPhaseStartGrantsLanesInOrder := by
  intro s t due
  rw [exec_slotPhaseStart due]
  refine ⟨fun hs => by rw [if_neg hs], fun legal active free queue met => ?_⟩
  have once := State.queueMet_nodup legal.claims
  have below (i : StreamNo) : s.queueMet.streams[i].deferral < Config.deferLimit := by
    rw [s.queueMet_get i]; exact (legal.streams.each i).deferralRange
  have someFree := State.freeSlots_ne_nil (s := s.queueMet) free
  obtain ⟨served, grants⟩ := State.serveLanes_grants once below someFree
  rw [if_pos active, served]
  obtain rfl : queue = s.queueMet.claimQueue := met
  refine ⟨_, rfl, ?_, fun i => ?_, fun idle => ?_, fun i rest hq => ⟨fun h0 h1 => ?_, fun h0 h1 => ?_,
    fun j more hr h0 h1 => ?_⟩⟩
  · exact congrArg (fun u : State => { u with timeline := nextDue t (.slotBegin 0) }) grants.frame
  · exact (grants.streams i).trans (by rw [s.queueMet_get i]; rfl)
  · have second : s.queueMet.serveLane 1 = s.queueMet := State.serveLane_idle (idle.imp_right (·.2))
    have first : s.queueMet.serveLane 0 = s.queueMet := State.serveLane_idle (idle.imp_right (·.1))
    rw [first, second]
    exact ⟨rfl, rfl, rfl⟩
  · obtain ⟨k, first⟩ := State.serveLane_granted (s := s.queueMet) h0 hq someFree
    rw [first.alone h1]
    exact ⟨k, first.free, first.queue, first.map, first.lanes⟩
  · have first : s.queueMet.serveLane 0 = s.queueMet := State.serveLane_idle (.inr h0)
    obtain ⟨k, second⟩ := State.serveLane_granted (s := s.queueMet) h1 hq someFree
    rw [first]
    exact ⟨k, second.free, second.queue, second.map, second.lanes⟩
  · subst hr
    obtain ⟨k, first⟩ := State.serveLane_granted (s := s.queueMet) h0 hq someFree
    refine ⟨k, first.free, ?_⟩
    rcases first.second h1 with ⟨m, other, hm, second⟩ | ⟨none, second⟩
    · exact .inl ⟨m, other, hm, second.queue, second.map.trans (by rw [first.map]; rfl),
        (second.lane 0).trans (first.lane 0), second.lane 1⟩
    · rw [second]
      exact .inr ⟨none, first.queue, first.map, first.lanes⟩

end Sys2Proof.Proofs
end

section
/-! PROOF. The slot-phase start that finds no FREE entry: the deferrals and their limit, from the head of the queue:
O33. -/

namespace Sys2Proof.Machine

open Sys2Proof.Safety

/-! ## The deferral limit for one stream (R90, R96) -/

/-- The stream fails at the deferral limit (R90). -/
def Stream.dismissed (r : Stream) : Bool := decide (Config.deferLimit ≤ r.deferral) && r.held == []

/-- A queued stream after the deferral limit (R90). -/
def Stream.limited (r : Stream) : Stream :=
  if r.deferral < Config.deferLimit then r
  else if r.held = [] then r.failed .noSlot
  else { r with deferral := 0, shortPosted := true }

/-- The event of stream `i` at the deferral limit (R90, R96). -/
def Stream.limitEvent (i : StreamNo) (r : Stream) : Option Event :=
  if r.deferral < Config.deferLimit then none
  else if r.held = [] then some (.streamFailed i .noSlot)
  else if r.shortPosted = true then none
  else some (.streamShort i .noSlot)

section Limit

variable {r : Stream}

/-- Below the limit nothing changes. -/
theorem Stream.limit_below (h : r.deferral < Config.deferLimit) (i : StreamNo) :
    r.limited = r ∧ r.dismissed = false ∧ r.limitEvent i = none :=
  ⟨if_pos h, by simp [Stream.dismissed, h], if_pos h⟩

/-- At the limit a stream with no held slot fails. -/
theorem Stream.limit_fails (h : ¬ r.deferral < Config.deferLimit) (empty : r.held = []) (i : StreamNo) :
    r.limited = r.failed .noSlot ∧ r.dismissed = true ∧ r.limitEvent i = some (.streamFailed i .noSlot) := by
  refine ⟨?_, ?_, ?_⟩
  · rw [Stream.limited, if_neg h, if_pos empty]
  · simp [Stream.dismissed, Nat.not_lt.mp h, empty]
  · rw [Stream.limitEvent, if_neg h, if_pos empty]

/-- At the limit a stream with held slots starts its count again and is short. -/
theorem Stream.limit_restarts (h : ¬ r.deferral < Config.deferLimit) (held : r.held ≠ []) (i : StreamNo) :
    r.limited = { r with deferral := 0, shortPosted := true } ∧ r.dismissed = false ∧
      r.limitEvent i = if r.shortPosted = true then none else some (.streamShort i .noSlot) := by
  refine ⟨?_, ?_, ?_⟩
  · rw [Stream.limited, if_neg h, if_neg held]
  · simp [Stream.dismissed, held]
  · rw [Stream.limitEvent, if_neg h, if_neg held]

end Limit

theorem State.limitDeferral_eq (s : State) (i : StreamNo) :
    s.limitDeferral i = { s with
      streams := s.streams.set i s.streams[i].limited
      claimQueue := if s.streams[i].dismissed then s.claimQueue.filter (· ≠ i) else s.claimQueue
      events := eventsAfter s.events (s.streams[i].limitEvent i).toList s.cycleNumber } := by
  by_cases below : s.streams[i].deferral < Config.deferLimit
  · obtain ⟨limited, dismissed, event⟩ := Stream.limit_below below i
    have same : s.streams.set i s.streams[i] = s.streams := Vector.set_getElem_self i.isLt
    rw [State.limitDeferral, if_pos below, limited, dismissed, event, same]
    rfl
  · by_cases empty : s.streams[i].held = []
    · obtain ⟨limited, dismissed, event⟩ := Stream.limit_fails below empty i
      rw [State.limitDeferral, if_neg below, if_pos empty, limited, dismissed, event]
      rfl
    · obtain ⟨limited, dismissed, event⟩ := Stream.limit_restarts below empty i
      rw [State.limitDeferral, if_neg below, if_neg empty, limited, dismissed, event, State.shortStream_eq,
        State.modStream_get, if_pos rfl, State.modStream, Vector.set_set]
      cases s.streams[i].shortPosted <;> rfl

theorem State.limitDeferral_get (s : State) (i j : StreamNo) :
    (s.limitDeferral i).streams[j] = if i = j then s.streams[i].limited else s.streams[j] := by
  rw [State.limitDeferral_eq]; exact getElem_set_fin ..

theorem State.limitDeferral_claimQueue (s : State) (i : StreamNo) :
    (s.limitDeferral i).claimQueue = s.claimQueue.filter fun j => !(j == i && s.streams[i].dismissed) := by
  rw [State.limitDeferral_eq]
  change ite _ _ _ = _
  cases s.streams[i].dismissed
  · simp
  · exact List.filter_congr fun j _ => by by_cases hj : j = i <;> simp [hj]

/-- The limit applied to streams one after another, whose records `r` are the ones before the first. -/
theorem State.limitDeferrals_eq {es : List StreamNo} (once : es.Nodup) {s : State} {r : StreamNo → Stream}
    (met : ∀ i ∈ es, s.streams[i] = r i) :
    es.foldl State.limitDeferral s = { s with
      streams := Vector.ofFn fun i => if i ∈ es then (r i).limited else s.streams[i]
      claimQueue := s.claimQueue.filter fun i => !(es.contains i && (r i).dismissed)
      events := eventsAfter s.events (es.filterMap fun i => (r i).limitEvent i) s.cycleNumber } := by
  induction es generalizing s with
  | nil =>
    simp [eventsAfter]
  | cons i es ih =>
    obtain ⟨fresh, once⟩ := List.nodup_cons.mp once
    have head := met i List.mem_cons_self
    have rest (j : StreamNo) (hj : j ∈ es) : (s.limitDeferral i).streams[j] = r j := by
      rw [State.limitDeferral_get, if_neg (by rintro rfl; exact fresh hj)]
      exact met j (List.mem_cons_of_mem i hj)
    have streams (j : StreamNo) : (if j ∈ es then (r j).limited else (s.limitDeferral i).streams[j]) =
        if j ∈ i :: es then (r j).limited else s.streams[j] := by
      rw [State.limitDeferral_get, head]
      by_cases hj : i = j
      · subst hj; simp [fresh]
      · simp [hj, Ne.symm hj]
    have queue : (s.limitDeferral i).claimQueue.filter (fun j => !(es.contains j && (r j).dismissed)) =
        s.claimQueue.filter fun j => !((i :: es).contains j && (r j).dismissed) := by
      rw [State.limitDeferral_claimQueue, head, List.filter_filter]
      refine List.filter_congr fun j _ => ?_
      by_cases hj : j = i
      · subst hj; simp [fresh]
      · simp [hj]
    have events : eventsAfter (s.limitDeferral i).events (es.filterMap fun j => (r j).limitEvent j) s.cycleNumber =
        eventsAfter s.events ((i :: es).filterMap fun j => (r j).limitEvent j) s.cycleNumber := by
      rw [State.limitDeferral_eq, head, List.filterMap_cons]
      cases (r i).limitEvent i <;> rfl
    have cycle : (s.limitDeferral i).cycleNumber = s.cycleNumber := by rw [State.limitDeferral_eq]; rfl
    rw [List.foldl_cons, ih once rest]
    simp only [streams]
    rw [queue, cycle, events, State.limitDeferral_eq]

/-! ## A slot-phase start that grants nothing (R89) -/

/-- A queued stream that counts a deferral (R89). -/
def Stream.deferred (r : Stream) : Stream := { r with deferral := r.deferral + 1 }

theorem State.countDeferrals_get (s : State) (i : StreamNo) :
    s.countDeferrals.streams[i] = if i ∈ s.claimQueue then s.streams[i].deferred else s.streams[i] := by
  rw [State.countDeferrals, State.mapStreams_get]
  simp only [List.contains_eq_mem, decide_eq_true_eq]
  rfl

theorem State.serveLanes_defers {s : State} (once : s.claimQueue.Nodup) (full : s.freeSlots = []) :
    s.serveLanes = { s with
      streams := Vector.ofFn fun i => if i ∈ s.claimQueue then s.streams[i].deferred.limited else s.streams[i]
      claimQueue := s.claimQueue.filter fun i => !s.streams[i].deferred.dismissed
      events := eventsAfter s.events (s.claimQueue.filterMap fun i => s.streams[i].deferred.limitEvent i)
        s.cycleNumber } := by
  have counted (i : StreamNo) (hi : i ∈ s.claimQueue) : s.countDeferrals.streams[i] = s.streams[i].deferred := by
    rw [State.countDeferrals_get, if_pos hi]
  have streams (i : StreamNo) :
      (if i ∈ s.claimQueue then s.streams[i].deferred.limited else s.countDeferrals.streams[i]) =
        if i ∈ s.claimQueue then s.streams[i].deferred.limited else s.streams[i] := by
    split
    · rfl
    · rw [State.countDeferrals_get, if_neg ‹_›]
  have queue : s.claimQueue.filter (fun i => !(s.claimQueue.contains i && s.streams[i].deferred.dismissed)) =
      s.claimQueue.filter fun i => !s.streams[i].deferred.dismissed :=
    List.filter_congr fun i hi => by rw [List.contains_iff_mem.mpr hi, Bool.true_and]
  have limited := State.limitDeferrals_eq once (s := s.countDeferrals) counted
  simp only [streams] at limited
  rw [State.serveLanes, if_pos full]
  refine limited.trans ?_
  rw [← queue]
  rfl

/-- A queued stream waits no longer (R87). -/
theorem State.waited_of_queueMet {s : State} (h : StreamsLegal s) {i : StreamNo} (hi : i ∈ s.queueMet.claimQueue) :
    s.streams[i].waited = { s.streams[i] with backoff := 0 } := by
  have ready : (if s.streams[i].state = .claiming then s.streams[i].backoff - 1 else s.streams[i].backoff) = 0 := by
    rcases List.mem_append.mp hi with queued | joins
    · rw [((h.each i).queuedReady queued).1]; exact ite_self 0
    · have joins := (List.mem_filter.mp joins).2
      simp only [Bool.and_eq_true, beq_iff_eq] at joins
      obtain ⟨⟨⟨⟨⟨claiming, backoff⟩, -⟩, -⟩, -⟩, -⟩ := joins
      rw [if_pos claiming, backoff]
  rw [Stream.waited, ready]

end Sys2Proof.Machine

namespace Sys2Proof.Proofs

open Sys2Proof.Machine Sys2Proof.Safety

/-- Settles O33: a queued stream has no backoff left and its deferral is below the limit, so one more brings it at most
to the limit, and the limit judges the queue from its head. -/
theorem slotPhaseStartWithoutFreeEntryDefers : Obligations.SlotPhaseStartWithoutFreeEntryDefers := by
  intro s t due legal active full queue met
  have once := State.queueMet_nodup legal.claims
  have defers := State.serveLanes_defers once (State.freeSlots_eq_nil (s := s.queueMet) full)
  have ⟨_, _, timeline, _⟩ := due
  have cycle : s.queueMet.cycleNumber = some t.cycle := congrArg (Option.map Timeline.cycle) timeline
  obtain rfl : queue = s.queueMet.claimQueue := met
  have record (i : StreamNo) (hi : i ∈ s.queueMet.claimQueue) :
      s.queueMet.streams[i].deferred = { s.streams[i] with backoff := 0, deferral := s.streams[i].deferral + 1 } := by
    rw [s.queueMet_get i, State.waited_of_queueMet legal.streams hi]; rfl
  have left : (s.queueMet.claimQueue.filter fun i => !s.queueMet.streams[i].deferred.dismissed) =
      s.queueMet.claimQueue.filter fun i => !(s.streams[i].deferral + 1 == 32 && s.streams[i].held == []) :=
    List.filter_congr fun i hi => by
      have range : s.streams[i].deferral < 32 := (legal.streams.each i).deferralRange
      have limit : decide (32 ≤ s.streams[i].deferral + 1) = (s.streams[i].deferral + 1 == 32) := by
        rw [Bool.eq_iff_iff, decide_eq_true_iff, beq_iff_eq]; omega
      rw [record i hi, ← limit]
      rfl
  have posted : (s.queueMet.claimQueue.filterMap fun i => s.queueMet.streams[i].deferred.limitEvent i) =
      s.queueMet.claimQueue.filterMap fun i =>
        if s.streams[i].deferral + 1 < 32 then none
        else if s.streams[i].held = [] then some (.streamFailed i .noSlot)
        else if s.streams[i].shortPosted = true then none
        else some (.streamShort i .noSlot) :=
    List.filterMap_congr fun i hi => by rw [record i hi]; rfl
  rw [exec_slotPhaseStart due, if_pos active, defers, left, posted, cycle]
  refine ⟨_, rfl, rfl, fun i => (Vector.getElem_ofFn i.isLt).trans ?_, rfl⟩
  split
  · rename_i hi; rw [record i hi]; rfl
  · exact s.queueMet_get i

end Sys2Proof.Proofs
end

section
/-! PROOF. The requests of the transmit streams, OPEN_TX, CLOSE_TX and PUSH: O13 to O16. -/

namespace Sys2Proof.Machine

open Sys2Proof.Safety

/-! ## OPEN_TX (R107) -/

theorem State.tagTaken_iff (s : State) (i : StreamNo) (tag : Byte) :
    s.tagTaken i tag = true ↔ ∃ j : StreamNo, j ≠ i ∧ s.streams[j].state ≠ .idle ∧ s.streams[j].tag = tag := by
  simp only [State.tagTaken, List.any_eq_true, mem_allStreams, true_and, Bool.and_eq_true, bne_iff_ne, beq_iff_eq,
    StreamState.inUse_iff, and_assoc]

section OpenTx

variable {s : State} {stream tag wanted : Byte} {i : StreamNo}

theorem State.openTx_badArg (on : ¬ (s.station = .unconfigured ∨ s.station = .leaving))
    (bad : 8 ≤ stream.toNat ∨ wanted.toNat = 0 ∨ 5 ≤ wanted.toNat) :
    State.openTx stream tag wanted s = s.refuse .badArg := by
  rw [State.openTx, if_neg on]
  rcases bad with number | count
  · rw [streamArg_of_ge number]
  · have range : ¬ (1 ≤ wanted.toNat ∧ wanted.toNat ≤ 4) := by omega
    cases streamArg stream with
    | none => rfl
    | some j => exact if_pos range

/-- With good arguments the stream's own state is looked at first, and then the tags of the others. -/
theorem State.openTx_checked (on : ¬ (s.station = .unconfigured ∨ s.station = .leaving)) (number : stream.toNat = i.val)
    (range : 1 ≤ wanted.toNat ∧ wanted.toNat ≤ 4) :
    State.openTx stream tag wanted s =
      if s.streams[i].state ≠ .idle then s.refuse .busy
      else if s.tagTaken i tag then s.refuse .duplicate
      else (s.modStream i fun _ => Stream.opened tag wanted.toNat).accept := by
  rw [State.openTx, if_neg on, streamArg_of_lt number]
  exact if_neg (not_not_intro range)

end OpenTx

/-! ## CLOSE_TX (R116, R117) -/

/-- The record of a stream that closes, and ends at once exactly where it holds no slot. -/
theorem Stream.closed_eq {r : Stream} {atOnce : Bool} (ends : atOnce = true ↔ r.held = []) :
    r.closed atOnce = { r with
      state := if r.held = [] then .idle else .closing
      attempts := 0, backoff := 0, deferral := 0, shortPosted := false, queue := [] } := by
  by_cases held : r.held = []
  · simp [ends.mpr held, Stream.closed, Stream.clearClaim, held]
  · simp [Bool.eq_false_iff.mpr (held ∘ ends.mp), Stream.closed, Stream.clearClaim, held]

theorem laneWithout_eq (i : StreamNo) (lane : Option Lane) :
    laneWithout i lane = match lane with
      | some r => if r.stream = i then none else some r
      | none => none := by
  cases lane with
  | none => rfl
  | some r => by_cases h : r.stream = i <;> simp [laneWithout, h]

theorem MapEntry.closed_eq (i : StreamNo) (e : MapEntry) :
    e.closed i = match e with
      | .mine j c f => if j = i then .mine j c true else .mine j c f
      | .probe l j => if j = i then .held none 0 else .probe l j
      | e => e := by
  cases e with
  | mine j c f => by_cases h : j = i <;> simp [MapEntry.closed, h]
  | _ => rfl

/-- A stream without a slot has no block in transit to condemn. -/
theorem condemned_of_held_nil {s : State} (legal : Legal s) {i : StreamNo} (held : s.streams[i].held = []) :
    s.inTransit.map (InTransit.condemned i) = s.inTransit := by
  cases carried : s.inTransit with
  | none => rfl
  | some b =>
    refine congrArg some (if_neg ?_)
    rintro rfl
    have mine : b.slot ∈ s.streams[b.stream].held :=
      ((legal.streams.each b.stream).heldMine b.slot).mpr (legal.pool.transitMine b carried)
    exact List.not_mem_nil (held ▸ mine)

/-! ## PUSH (R108, R145) -/

theorem StreamState.takesBlocks_iff {x : StreamState} : x.takesBlocks = true ↔ x = .claiming ∨ x = .live := by
  cases x <;> simp [StreamState.takesBlocks]

theorem State.blocksOf_eq (s : State) (i : StreamNo) :
    s.blocksOf i = s.streams[i].queue.length + if s.inTransit.map (·.stream) = some i then 1 else 0 := by
  unfold State.blocksOf State.inTransitOf
  cases s.inTransit <;> simp

section Push

variable {s : State} {stream : Byte} {i : StreamNo} {payload : Payload}

theorem State.push_badState (number : stream.toNat = i.val) (takes : s.streams[i].state.takesBlocks ≠ true) :
    State.push stream payload s = s.refuse .badState := by
  rw [State.push, streamArg_of_lt number]
  exact if_pos takes

theorem State.push_full (number : stream.toNat = i.val) (takes : s.streams[i].state.takesBlocks = true)
    (full : 16 ≤ s.blocksOf i) : State.push stream payload s = s.refuse .full := by
  rw [State.push, streamArg_of_lt number]
  exact (if_neg (not_not_intro takes)).trans (if_pos full)

/-- A stream with room asks the pool for a buffer. -/
theorem State.push_room (number : stream.toNat = i.val) (takes : s.streams[i].state.takesBlocks = true)
    (room : s.blocksOf i < 16) :
    State.push stream payload s =
      match s.givenBuffer with
      | none => s.refuse .poolEmpty
      | some b => ((s.allocate b).modStream i fun r =>
          { r with queue := r.queue ++ [{ buffer := b, data := payload }] }).accept := by
  rw [State.push, streamArg_of_lt number]
  exact (if_neg (not_not_intro takes)).trans (if_neg (Nat.not_le.mpr room))

end Push

end Sys2Proof.Machine

namespace Sys2Proof.Proofs

open Sys2Proof.Machine Sys2Proof.Safety

/-- Settles O13, check by check. -/
theorem openTxChecksInOrder : Obligations.OpenTxChecksInOrder := by
  intro s stream tag wanted takes
  refine ⟨fun off => State.request_replies takes (if_pos off), fun configured stays => ?_⟩
  have on : ¬ (s.station = .unconfigured ∨ s.station = .leaving) := not_or.mpr ⟨configured, stays⟩
  refine ⟨fun bad => State.request_replies takes (State.openTx_badArg on bad), fun i number low high => ?_⟩
  have checked := State.openTx_checked (tag := tag) on number ⟨low, high⟩
  refine ⟨fun used => ?_, fun idle => ?_⟩
  · rw [if_pos used] at checked
    exact State.request_replies takes checked
  · rw [if_neg (not_not_intro idle)] at checked
    refine ⟨fun taken => ?_, fun fresh => ?_⟩
    · rw [if_pos ((s.tagTaken_iff i tag).mpr taken)] at checked
      exact State.request_replies takes checked
    · have free : ¬ s.tagTaken i tag = true := fun taken =>
        have ⟨j, other, used, same⟩ := (s.tagTaken_iff i tag).mp taken
        fresh j other used same
      rw [if_neg free] at checked
      exact State.request_replies takes checked

/-- Settles O14: the close of a legal stream, field by field. -/
theorem closeTxOfOpenStream : Obligations.CloseTxOfOpenStream := by
  intro s stream i legal takes number used
  have stoppable := StoppableAt.of_legal legal i
  have serves : State.closeTx stream s = (s.closeStream i).accept := by
    rcases used with h | h <;> simp only [State.closeTx, streamArg_of_lt number, h]
  have events : eventsAfter s.events (if s.closesAtOnce i then [.streamClosed i] else []) s.cycleNumber =
      if s.streams[i].held = [] then enqueueEvent s.events { event := .streamClosed i, cycle := s.cycleNumber }
      else s.events := by
    rw [eventsAfter_ite]
    exact if_congr stoppable.closesAtOnce_iff rfl rfl
  have closes := State.closeStream_eq stoppable.fit i
  rw [Stream.closed_eq stoppable.closesAtOnce_iff, events] at closes
  refine ⟨s.closeStream i, State.request_replies takes serves, ?_⟩
  rw [closes]
  exact ⟨rfl, fun l => (Vector.getElem_ofFn l.isLt).trans (laneWithout_eq i _),
    fun k => (Vector.getElem_ofFn k.isLt).trans (MapEntry.closed_eq i _)⟩

/-- Settles O15: a FAILED stream holds no slot, so that nothing of it is in transit. -/
theorem closeTxOfFailedStreamAndRefusals : Obligations.CloseTxOfFailedStreamAndRefusals := by
  intro s stream takes
  refine ⟨fun i number => ⟨fun legal failed => ?_, fun closed => ?_⟩, fun bad => ?_⟩
  · have held : s.streams[i].held = [] := (legal.streams.each i).idleHolds (.inr failed)
    have serves : State.closeTx stream s = (s.closeFailed i).accept := by
      simp only [State.closeTx, streamArg_of_lt number, failed]
    have closes := s.closeFailed_eq i
    rw [condemned_of_held_nil legal held] at closes
    rw [closes] at serves
    exact State.request_replies takes serves
  · have serves : State.closeTx stream s = s.refuse .badState := by
      rcases closed with h | h <;> simp only [State.closeTx, streamArg_of_lt number, h]
    exact State.request_replies takes serves
  · have serves : State.closeTx stream s = s.refuse .badArg := by simp only [State.closeTx, streamArg_of_ge bad]
    exact State.request_replies takes serves

/-- Settles O16: the checks in order, and then whether the pool gives a buffer. -/
theorem pushChecksInOrder : Obligations.PushChecksInOrder := by
  intro s stream payload takes
  refine ⟨fun bad => ?_, fun i number => ?_⟩
  · exact State.request_replies takes (by simp only [State.push, streamArg_of_ge bad]; rfl)
  rw [← s.blocksOf_eq i]
  refine ⟨fun claiming live => ?_, fun used => ⟨fun full => ?_, fun room => ?_⟩⟩
  · have closed : s.streams[i].state.takesBlocks ≠ true := fun h =>
      (StreamState.takesBlocks_iff.mp h).elim claiming live
    exact State.request_replies takes (State.push_badState number closed)
  · exact State.request_replies takes (State.push_full number (StreamState.takesBlocks_iff.mpr used) full)
  · have serves := State.push_room (payload := payload) number (StreamState.takesBlocks_iff.mpr used) room
    rcases s.givenBuffer_cases with ⟨empty, given⟩ | ⟨b, free, given⟩
    · rw [given] at serves
      exact ⟨fun _ => State.request_replies takes serves,
        fun left => absurd empty (List.length_pos_iff.mp left)⟩
    · rw [given] at serves
      exact ⟨fun out => absurd (List.length_eq_zero_iff.mp out) (List.ne_nil_of_mem free),
        fun _ => ⟨b, free, State.request_replies takes serves⟩⟩

end Sys2Proof.Proofs
end

section
/-! PROOF. The release of an owned slot by a second collision, and its end by FINAL: O38 and O39. -/

namespace Sys2Proof.Machine

open Sys2Proof.Safety

/-! ## The end of an occurrence that gives up its slot (R10, R37) -/

theorem State.takeOutcome_final {f : SlotFrame} (h : f.mark = .final) (s : State) (k : SlotNo) (o : Outcome) :
    s.takeOutcome k (.slot f) o = s.finalSent k := by
  obtain ⟨_, _, _, _, _⟩ := f
  cases h
  rfl

/-- The check of R37, by the MINE entries that stood beside the slot given up. -/
theorem State.checkLeft_givenUp {s w : State} {k : SlotNo} {e : MapEntry} (station : w.station = s.station)
    (map : w.map = s.map.set k e) (given : e.isMine = false) :
    ((s.station ≠ .leaving ∨ ∃ (m : SlotNo) (j : StreamNo) (d : Nat) (q : Bool), m ≠ k ∧ s.map[m] = .mine j d q) →
      w.checkLeft = w) ∧
    (s.station = .leaving → (∀ (m : SlotNo) (j : StreamNo) (d : Nat) (q : Bool), m ≠ k → s.map[m] ≠ .mine j d q) →
      ArrivesLeft w w.checkLeft) := by
  have entry (m : SlotNo) : w.map[m] = if k = m then e else s.map[m] := by rw [map]; exact s.setEntry_get k m e
  refine ⟨fun stays => State.checkLeft_stays (station ▸ stays.imp_right ?_),
    fun leaving alone => State.checkLeft_arrives (station.trans leaving) fun m j d q mine => ?_⟩
  · rintro ⟨m, j, d, q, other, mine⟩
    exact ⟨m, j, d, q, (entry m).trans ((if_neg other.symm).trans mine)⟩
  · rw [entry] at mine
    split at mine
    · rw [mine] at given
      cases given
    · rename_i other
      exact alone m j d q (Ne.symm other) mine

/-- Where the outcome gives up a MINE slot, a station that leaves is checked. -/
theorem exec_slotOccurrenceEnd_givesUp {s u : State} {k : SlotNo} {t : Timeline} {x : Transmission} {f : SlotFrame}
    {collided : Bool} {e : MapEntry} (due : Due s (.slotEnd k) t) (hx : s.tx = some x) (hs : x.stage ≠ .handedOver)
    (hf : x.frame = .slot f)
    (hc : collided = true ↔ (x.stage = .jamming ∨ ∃ j ∈ s.reports.jams, t.slotOpens k ≤ j ∧ j ≤ t.slotCloses k))
    (mine : s.map[k].isMine = true)
    (hu : (s.slotClosed k collided).takeOutcome k (.slot f) (.ofCollided collided) = u) (line : u.timeline = some t)
    (map : u.map = s.map.set k e) (given : e.isMine = false) :
    exec (.slotOccurrenceEnd k) s =
      .next ({ u with timeline := nextDue t (Boundary.afterSlot k) } : State).checkLeft := by
  have outcome : s.outcome x (t.slotOpens k) (t.slotCloses k) = .ofCollided collided := State.outcome_eq hc
  have lost : u.map[k].isMine = false := by
    rw [map]
    exact (congrArg MapEntry.isMine (Vector.getElem_set_self k.isLt)).trans given
  rw [exec_slotOccurrenceEnd_own due hx hs, State.endOwnSlot, outcome, State.recordOutcome_eq, hf, hu,
    State.nextIs_eq line]
  refine congrArg Host.Outcome.next (if_pos ?_)
  rw [mine, lost]
  exact Bool.or_true _

/-! ## Closing streams that hold nothing more (R115, R118) -/

/-- A record that has just given up a slot ends if it was CLOSING with no other. -/
theorem State.finishClosing_of_record {s : State} {i : StreamNo} {v : Vector Stream 8} {r : Stream}
    (given : s.streams = v.set i r) :
    s.finishClosing i = { s with
      streams := v.set i r.ended
      events := if r.state = .closing ∧ r.held = [] then
          enqueueEvent s.events { event := .streamClosed i, cycle := s.cycleNumber }
        else s.events } := by
  have record : s.streams[i] = r := by rw [given]; exact Vector.getElem_set_self i.isLt
  have ended : s.streams.set i { r with state := .idle } = v.set i { r with state := .idle } := by
    rw [given, Vector.set_set]
  rw [State.finishClosing, record, Stream.ended]
  split
  · rw [← ended, ← record]
    rfl
  · rw [← given]

/-! ## The release of a slot (R113, R115) -/

/-- The record of a stream that lost slot `k` to conflict, and ended with it or did not (R115). -/
def Stream.released (r : Stream) (k : SlotNo) (closed : Bool) : Stream :=
  { r with
    state := if closed then .idle else if r.state = .closing then .closing else .claiming
    held := r.held.erase k, slotsLost := bump r.slotsLost }

theorem StreamState.afterRelease_closing {x : StreamState} : x.afterRelease = .closing ↔ x = .closing := by
  cases x <;> simp [StreamState.afterRelease]

theorem Stream.without_ends {r : Stream} {k : SlotNo} {lost : Half} :
    (r.without k lost).state = .closing ∧ (r.without k lost).held = [] ↔ r.state = .closing ∧ r.held.erase k = [] :=
  and_congr_left' StreamState.afterRelease_closing

theorem Stream.without_ended {r : Stream} {k : SlotNo} {closed : Bool}
    (used : r.state = .claiming ∨ r.state = .live ∨ r.state = .closing)
    (ends : closed = true ↔ r.state = .closing ∧ r.held.erase k = []) :
    (r.without k (bump r.slotsLost)).ended = r.released k closed := by
  rw [Stream.ended, if_congr (Stream.without_ends.trans ends.symm) rfl rfl, Stream.released]
  cases closed with
  | true => rfl
  | false => rcases used with h | h | h <;> simp [Stream.without, StreamState.afterRelease, h]

/-- The second conflict in a row releases the slot, field by field; `r` is the stream's record as it stands by then. -/
theorem State.raiseConflict_second {s : State} {k : SlotNo} {i : StreamNo} {p closed : Bool} {v : Vector Stream 8}
    {r : Stream} (hk : s.map[k] = .mine i 1 p) (record : s.streams = v.set i r)
    (used : r.state = .claiming ∨ r.state = .live ∨ r.state = .closing)
    (ends : closed = true ↔ r.state = .closing ∧ r.held.erase k = []) :
    s.raiseConflict k = { s with
      map := s.map.set k (.held none 0), streams := v.set i (r.released k closed)
      events := eventsAfter s.events (.streamLost i k :: if closed then [.streamClosed i] else []) s.cycleNumber } := by
  have releases : s.raiseConflict k = s.releaseSlot k i := by
    simp only [State.raiseConflict, hk]
    rfl
  have lost : s.streams.set i (s.streams[i].without k (bump s.streams[i].slotsLost)) =
      v.set i (r.without k (bump r.slotsLost)) := by
    simp only [record, Fin.getElem_fin, Vector.getElem_set_self, Vector.set_set]
  rw [releases, State.releaseSlot, State.finishClosing_of_record lost, Stream.without_ended used ends,
    if_congr (Stream.without_ends.trans ends.symm) rfl rfl, ← eventsAfter_ite]
  rfl

/-! ## The end of a FINAL (R118) -/

/-- After a FINAL a CLOSING stream gives its slot up, field by field. -/
theorem State.finalSent_closing {s : State} {k : SlotNo} {i : StreamNo} {c : Nat} {p : Bool}
    (hk : s.map[k] = .mine i c p) (closing : s.streams[i].state = .closing) :
    s.finalSent k = { s with
      map := s.map.set k (.cooling 4)
      streams := s.streams.set i { s.streams[i] with
        held := s.streams[i].held.erase k
        state := if s.streams[i].held.erase k = [] then .idle else .closing }
      events := if s.streams[i].held.erase k = [] then
          enqueueEvent s.events { event := .streamClosed i, cycle := s.cycleNumber }
        else s.events } := by
  simp only [State.finalSent, hk]
  rw [State.finishClosing_of_record (v := s.streams) (r := { s.streams[i] with held := s.streams[i].held.erase k }) rfl]
  simp only [Stream.ended, closing, true_and]
  by_cases held : s.streams[i].held.erase k = []
  · simp only [if_pos held]
    rfl
  · simp only [if_neg held]
    rfl

end Sys2Proof.Machine

namespace Sys2Proof.Proofs

open Sys2Proof.Machine Sys2Proof.Safety

/-- Settles O38: the block in transit is settled first, then the stream loses the slot, and the check of R37 follows. -/
theorem secondCollisionReleasesTheSlot : Obligations.SecondCollisionReleasesTheSlot := by
  rintro s k t x f i p due hx hstage hf hjam hk used closed _ _ w ends rfl rfl hw
  have mine : s.map[k].isMine = true := by rw [hk]; rfl
  have ⟨_, _, line, _⟩ := due
  have cycle : s.cycleNumber = some t.cycle := congrArg (Option.map Timeline.cycle) line
  have same : s.streams = s.streams.set i s.streams[i] := (Vector.set_getElem_self i.isLt).symm
  have releases : ∃ u : State, (s.slotClosed k true).takeOutcome k (.slot f) (.ofCollided true) = u ∧
      u.timeline = some t ∧ u.station = s.station ∧ u.map = s.map.set k (.held none 0) ∧
      { u with timeline := nextDue t (Boundary.afterSlot k) } = w := by
    rcases hw with ⟨hm, rfl⟩ | ⟨b, hm, carried, rfl, hw⟩
    · have lost := State.raiseConflict_second (s := s.slotClosed k true) hk same used ends
      exact ⟨_, (State.takeOutcome_fill hm ..).trans lost, line, rfl, rfl, cycle ▸ rfl⟩
    · have carried : (s.slotClosed k true).inTransit = some b := carried
      have outcome {v : State} (settled : (s.slotClosed k true).settleTransit = v) :
          (s.slotClosed k true).takeOutcome k (.slot f) (.ofCollided true) = v.raiseConflict k :=
        (State.takeOutcome_data hm ..).trans (congrArg (State.raiseConflict · k) settled)
      rcases hw with ⟨hd, rfl⟩ | ⟨hd, rfl⟩
      · have settled := outcome (State.settleTransit_returns carried hd)
        exact ⟨_, settled.trans (State.raiseConflict_second hk rfl used ends), line, rfl, rfl, cycle ▸ rfl⟩
      · have settled := outcome (State.settleTransit_frees carried hd)
        exact ⟨_, settled.trans (State.raiseConflict_second hk same used ends), line, rfl, rfl, cycle ▸ rfl⟩
  obtain ⟨u, taken, still, station, map, rfl⟩ := releases
  have finish := exec_slotOccurrenceEnd_givesUp due hx hstage hf (iff_of_true rfl hjam) mine taken still map rfl
  have checked := State.checkLeft_givenUp (w := { u with timeline := nextDue t (Boundary.afterSlot k) }) station map rfl
  exact ⟨fun stays => finish.trans (congrArg _ (checked.1 stays)),
    fun leaving alone => ⟨_, finish, checked.2 leaving alone⟩⟩

/-- Settles O39: the slot is given up whatever the outcome, and the check of R37 follows. -/
theorem finalGivesTheSlotUp : Obligations.FinalGivesTheSlotUp := by
  rintro s k t x f i c p due hx hstage hf hm hk closing collided hc
  have mine : s.map[k].isMine = true := by rw [hk]; rfl
  have ⟨_, _, line, _⟩ := due
  have cycle : s.cycleNumber = some t.cycle := congrArg (Option.map Timeline.cycle) line
  have sent := (State.takeOutcome_final hm (s.slotClosed k collided) k (.ofCollided collided)).trans
    (State.finalSent_closing hk closing)
  have ends := exec_slotOccurrenceEnd_givesUp due hx hstage hf hc mine sent line rfl rfl
  rw [← cycle]
  exact ⟨_, _, rfl, ends, State.checkLeft_givenUp rfl rfl rfl⟩

end Sys2Proof.Proofs
end

section
/-! PROOF. What a command may do to the subscription table, and so its laws after every step: O57. -/

namespace Sys2Proof.Machine

open Sys2Proof.Safety

/-! ## What a command may do to the table -/

/-- The record of an entry that begins to follow a remote stream (R127). -/
def Subscription.following (source : Address) (tag : Byte) (r : Subscription) : Subscription :=
  { r with state := .waiting, source := source, tag := tag, expected := none, quietCount := 0, presence := false }

/-- The record of an entry that follows nothing any more (R128). -/
def Subscription.ceased (r : Subscription) : Subscription :=
  { r with state := .idle, expected := none, quietCount := 0, presence := false, queue := [] }

/-- The changes from the table `a` to the table `b` that one command may make. -/
inductive SubsStep (a b : Vector Subscription 16) : Prop where
  /-- Each entry follows what it did, if anything, and only adds to its queue. -/
  | keeps (h : ∀ e : EntryNo, a[e].Keeps b[e])
  /-- SUBSCRIBE: an entry takes a pair that no other used entry has. -/
  | follows (e : EntryNo) (source : Address) (tag : Byte) (named : source ≠ 0)
      (fresh : ∀ d : EntryNo, d ≠ e → a[d].state ≠ .idle → (a[d].source, a[d].tag) ≠ (source, tag))
      (h : b = a.set e (a[e].following source tag))
  /-- UNSUBSCRIBE. -/
  | ceases (e : EntryNo) (h : b = a.set e a[e].ceased)
  /-- The commit of a POP. -/
  | pops (e : EntryNo) (block : StoredBlock) (rest : List StoredBlock) (head : a[e].queue = block :: rest)
      (h : b = a.set e { a[e] with queue := rest })
  /-- A device reset. -/
  | resets (h : b = State.reset.subs)

theorem SubsStep.same {a b : Vector Subscription 16} (h : b = a) : SubsStep a b :=
  .keeps fun e => by rw [h]; exact .refl _

theorem Conserves.subsStep {s t : State} (k : Conserves s t) : SubsStep s.subs t.subs := .keeps k.subs

/-! ### Each change keeps the laws -/

theorem subsLegal_of_eq {s t : State} (L : SubsLegal s) (same : t.subs = s.subs) : SubsLegal t :=
  subsLegal_of_keeps L fun e => by rw [same]; exact .refl _

/-- A new record keeps the laws of the table if it fits and its pair, once used, is that of no other used entry. -/
theorem subsLegal_of_set {s t : State} {e : EntryNo} {r : Subscription} (L : SubsLegal s)
    (set : t.subs = s.subs.set e r) (fits : r.Fits)
    (fresh : r.state ≠ .idle → ∀ d : EntryNo, d ≠ e → s.subs[d].state ≠ .idle →
      (s.subs[d].source, s.subs[d].tag) ≠ (r.source, r.tag)) : SubsLegal t := by
  obtain ⟨each, pairs⟩ := (subsLegal_iff s).mp L
  have row (d : EntryNo) : t.subs[d] = if e = d then r else s.subs[d] := by
    simp [set, Vector.getElem_set, Fin.ext_iff]
  refine (subsLegal_iff t).mpr ⟨fun d => ?_, fun d f differ => ?_⟩
  · rw [row]
    split
    · exact fits
    · exact each d
  · rw [row, row]
    by_cases hd : e = d
    · subst hd
      rw [if_pos rfl, if_neg differ]
      exact fun used other => (fresh used f differ.symm other).symm
    · rw [if_neg hd]
      split
      · rename_i hf
        subst hf
        exact fun other used => fresh used d differ other
      · exact pairs d f differ

theorem Subscription.Fits.following {r : Subscription} (h : r.Fits) {source : Address} (named : source ≠ 0) (tag : Byte) :
    (r.following source tag).Fits :=
  ⟨h.queueRoom, zero_lt_lease, fun _ => rfl, nofun, fun _ => rfl, fun _ => named⟩

theorem Subscription.ceased_fits (r : Subscription) : r.ceased.Fits :=
  ⟨Nat.zero_le _, zero_lt_lease, fun _ => rfl, fun _ => ⟨rfl, rfl, rfl⟩, fun _ => rfl, fun used => absurd rfl used⟩

theorem Subscription.Fits.popped {r : Subscription} (h : r.Fits) {block : StoredBlock} {rest : List StoredBlock}
    (head : r.queue = block :: rest) : ({ r with queue := rest } : Subscription).Fits where
  queueRoom := (Nat.le_succ _).trans (by simpa [head] using h.queueRoom)
  quietRange := h.quietRange
  quietOnlyActive := h.quietOnlyActive
  idleEmpty idle := absurd (head.symm.trans (h.idleEmpty idle).1) (List.cons_ne_nil _ _)
  noExpectation := h.noExpectation
  sourceNamed := h.sourceNamed

theorem SubsStep.legal {s t : State} (h : SubsStep s.subs t.subs) (L : SubsLegal s) : SubsLegal t := by
  obtain ⟨each, pairs⟩ := (subsLegal_iff s).mp L
  cases h with
  | keeps k => exact subsLegal_of_keeps L k
  | follows e source tag named fresh set =>
    exact subsLegal_of_set L set ((each e).following named tag) fun _ => fresh
  | ceases e set => exact subsLegal_of_set L set s.subs[e].ceased_fits fun used => absurd rfl used
  | pops e block rest head set =>
    exact subsLegal_of_set L set ((each e).popped head) fun used d differ other => pairs d e differ other used
  | resets same => exact subsLegal_of_eq Proofs.resetStateIsLegal.subs same

/-! ## What each request does to the table -/

theorem State.configure_subs (address : Byte) (seed : Half) (f b : Bool) (s : State) :
    (State.configure address seed f b s).2.subs = s.subs := by
  unfold State.configure
  split
  · split <;> rfl
  · rfl

theorem State.startRequest_subsStep (s : State) : SubsStep s.subs s.startRequest.2.subs := by
  unfold State.startRequest
  split
  · exact ((s.switchOnReceiver_conserves.trans (State.startTimer_conserves _)).trans
      (State.enter_conserves _ _ _)).subsStep
  · exact .same rfl

theorem State.stopRequest_subsStep (s : State) : SubsStep s.subs s.stopRequest.2.subs := by
  unfold State.stopRequest
  split
  · exact .same rfl
  · exact .same rfl
  · rw [State.accept_state]; exact s.stopEarly_conserves.subsStep
  · rw [State.accept_state]; exact s.stopEarly_conserves.subsStep
  · rw [State.accept_state]; exact s.stopActive_conserves.subsStep
  · exact .same rfl

theorem State.openTx_subs (stream tag wanted : Byte) (s : State) : (State.openTx stream tag wanted s).2.subs = s.subs := by
  unfold State.openTx
  split
  · rfl
  · split
    · rfl
    · split
      · rfl
      · split
        · rfl
        · split <;> rfl

theorem State.closeTx_subsStep (stream : Byte) (s : State) : SubsStep s.subs (State.closeTx stream s).2.subs := by
  unfold State.closeTx
  split
  · exact .same rfl
  · split
    · exact .same rfl
    · exact .same rfl
    · rw [State.accept_state]; exact (s.closeStream_conserves _).subsStep
    · rw [State.accept_state]; exact (s.closeStream_conserves _).subsStep
    · rw [State.accept_state]; exact (s.closeFailed_conserves _).subsStep

theorem State.push_subs (stream : Byte) (payload : Payload) (s : State) : (State.push stream payload s).2.subs = s.subs := by
  unfold State.push
  split
  · rfl
  · split
    · rfl
    · split
      · rfl
      · split <;> rfl

theorem State.subscribe_subsStep (entry source tag : Byte) (s : State) :
    SubsStep s.subs (State.subscribe entry source tag s).2.subs := by
  unfold State.subscribe
  split
  · exact .same rfl
  · split
    · rename_i e a _ named
      split
      · exact .same rfl
      · split
        · exact .same rfl
        · split
          · exact .same rfl
          · rename_i free
            exact .follows e a tag (addressArg_ne_zero named)
              (fun d => State.pairTaken_false (Bool.eq_false_iff.mpr free)) rfl
    · exact .same rfl
    · exact .same rfl

theorem State.unsubscribe_subsStep (entry : Byte) (s : State) : SubsStep s.subs (State.unsubscribe entry s).2.subs := by
  unfold State.unsubscribe
  split
  · exact .same rfl
  · split
    · exact .same rfl
    · exact .ceases _ rfl

theorem RequestCode.serve_subsStep (c : RequestCode) (args : List Byte) (s : State) :
    SubsStep s.subs (c.serve args s).2.subs := by
  cases c with
  | configure => exact .same (State.configure_subs ..)
  | start => exact s.startRequest_subsStep
  | stop => exact s.stopRequest_subsStep
  | reset => exact .same rfl
  | openTx => exact .same (State.openTx_subs ..)
  | closeTx => exact State.closeTx_subsStep ..
  | push => exact .same (State.push_subs ..)
  | subscribe => exact State.subscribe_subsStep ..
  | unsubscribe => exact State.unsubscribe_subsStep ..
  | pop => exact .same (congrArg State.subs (State.pop_state ..))
  | readEvent => exact .same (congrArg State.subs s.readEvent_state)
  | readStation => exact .same rfl
  | readStream => exact .same (congrArg State.subs (State.readStream_state ..))
  | readSub => exact .same (congrArg State.subs (State.readSub_state ..))
  | readSlot => exact .same (congrArg State.subs (State.readSlot_state ..))

/-! ## What the link and the begin of a slot occurrence do to the table -/

theorem State.request_subsStep {s : State} {code : Byte} {args : List Byte} {serve : State → Reply × State}
    (served : SubsStep s.subs (serve s).2.subs) : SubsStep s.subs (s.request code args serve).subs := by
  rcases s.request_cases code args serve with ⟨-, -, taken⟩ | ⟨-, unchanged⟩
  · rw [taken]; exact served
  · rw [unchanged]; exact .same rfl

theorem State.unlessHeld_subsStep {s : State} {f : State → State} (h : SubsStep s.subs (f s).subs) :
    SubsStep s.subs (s.unlessHeld f).subs := by
  rcases s.unlessHeld_cases f with ⟨-, held⟩ | ⟨-, works⟩
  · rw [held]; exact .same rfl
  · rw [works]; exact h

theorem State.finishTransaction_subsStep (s : State) (k : Taken) : SubsStep s.subs (s.finishTransaction k).subs := by
  have finished : (s.finishTransaction k).subs = (s.commit k.commit).subs := rfl
  rw [finished]
  rcases s.commit_cases k.commit with same | ⟨-, event⟩ | ⟨e, block, rest, -, head, popped⟩
  · exact .same (congrArg State.subs same)
  · exact .same (by rw [event])
  · exact .pops e block rest head (congrArg State.subs popped)

theorem State.takeByte_subsStep (s : State) (b : Byte) : SubsStep s.subs (s.takeByte b).subs := by
  rcases s.takeByte_cases b with ⟨l, moved⟩ | ⟨code, serve, taken, known⟩ | ⟨-, reset⟩ | ⟨k, n, -, -, finished⟩
  · rw [moved]; exact .same rfl
  · rw [taken]
    rcases known with rfl | ⟨c, args, rfl⟩
    · exact .same rfl
    · exact c.serve_subsStep args s
  · rw [reset]; exact .resets rfl
  · rw [finished]; exact s.finishTransaction_subsStep k

theorem State.beginSlot_subs (s : State) (k : SlotNo) : (s.beginSlot k).subs = s.subs := by
  unfold State.beginSlot
  split
  · split <;> rfl
  · split
    · unfold State.sendOwned
      split
      · rfl
      · split <;> rfl
    · rfl
  all_goals rfl

/-! ## What every command does to the table -/

theorem exec_subsStep {c : Instr} {s t : State} (he : exec c s = .next t) : SubsStep s.subs t.subs := by
  by_cases hc : raised c = true
  · exact (exec_conserves hc he).subsStep
  cases c with
  | configure => cases he; exact State.request_subsStep (.same (State.configure_subs ..))
  | start => cases he; exact State.request_subsStep s.startRequest_subsStep
  | stop => cases he; exact State.request_subsStep s.stopRequest_subsStep
  | openTx => cases he; exact State.request_subsStep (.same (State.openTx_subs ..))
  | closeTx => cases he; exact State.request_subsStep (State.closeTx_subsStep ..)
  | push => cases he; exact State.request_subsStep (.same (State.push_subs ..))
  | subscribe => cases he; exact State.request_subsStep (State.subscribe_subsStep ..)
  | unsubscribe => cases he; exact State.request_subsStep (State.unsubscribe_subsStep ..)
  | pop => cases he; exact State.request_subsStep (.same (congrArg State.subs (State.pop_state ..)))
  | readEvent => cases he; exact State.request_subsStep (.same (congrArg State.subs s.readEvent_state))
  | readStation => cases he; exact State.request_subsStep (.same rfl)
  | readStream => cases he; exact State.request_subsStep (.same (congrArg State.subs (State.readStream_state ..)))
  | readSub => cases he; exact State.request_subsStep (.same (congrArg State.subs (State.readSub_state ..)))
  | readSlot => cases he; exact State.request_subsStep (.same (congrArg State.subs (State.readSlot_state ..)))
  | unknownCode =>
    cases he
    split
    · exact State.request_subsStep (.same rfl)
    · exact .same rfl
  | reset =>
    cases he
    refine State.unlessHeld_subsStep ?_
    split
    · exact .resets rfl
    · exact .same rfl
  | transactionBegin =>
    cases he
    split
    · exact .same rfl
    · split <;> exact .same rfl
  | transactionEnd =>
    cases he
    split
    · exact .same rfl
    · split <;> exact .same rfl
  | consumingReadCommit =>
    cases he
    refine State.unlessHeld_subsStep ?_
    split
    · split
      · exact s.finishTransaction_subsStep _
      · exact .same rfl
    all_goals exact .same rfl
  | resetInputAsserted =>
    cases he
    split
    · exact .same rfl
    · exact .resets rfl
  | resetInputReleased =>
    cases he
    split <;> exact .same rfl
  | slotOccurrenceBegin k =>
    cases he
    rcases s.atEvent_cases (.slotBegin k) (fun _ s => (s.openDivision.beginSlot k).nextIs (.slotEnd k))
      with ⟨u, -, -, -, -, due⟩ | unchanged
    · rw [due]; exact .same (s.openDivision.beginSlot_subs k)
    · rw [unchanged]; exact .same rfl
  | byteComplete b => cases he; exact State.unlessHeld_subsStep (s.takeByte_subsStep b)
  | _ => exact absurd rfl hc

end Sys2Proof.Machine

namespace Sys2Proof.Proofs

open Sys2Proof.Machine Sys2Proof.Safety

/-- Settles O57: a step with no command waiting leaves the table alone, and a command changes it in one of the ways that
keep its laws. -/
theorem stepKeepsSubscriptionLaws : Obligations.StepKeepsSubscriptionLaws := by
  intro s t L he
  unfold step at he
  split at he
  · cases he
    exact subsLegal_of_eq L rfl
  · exact (exec_subsStep he).legal (subsLegal_of_eq L rfl)

end Sys2Proof.Proofs
end

section
/-! PROOF. The requests of the receive unit and the consuming reads: O17 to O19. -/

namespace Sys2Proof.Machine

open Sys2Proof.Safety

/-! ## SUBSCRIBE (R127) -/

theorem addressArg_accepts {b : Byte} (low : 1 ≤ b.toNat) (high : b.toNat ≤ 31) : addressArg b = some (b.setWidth 5) :=
  if_pos ⟨low, high⟩

theorem addressArg_refuses {b : Byte} (bad : b.toNat = 0 ∨ 32 ≤ b.toNat) : addressArg b = none := if_neg (by omega)

/-- A byte of 1 to 31 names the address of its number. -/
theorem setWidth_eq_address_iff {b : Byte} (high : b.toNat ≤ 31) (a : Address) : b.setWidth 5 = a ↔ b.toNat = a.toNat := by
  rw [← BitVec.toNat_inj, BitVec.toNat_setWidth, Nat.mod_eq_of_lt (by omega)]

theorem State.pairTaken_iff (s : State) (e : EntryNo) (source : Address) (tag : Byte) :
    s.pairTaken e source tag = true ↔
      ∃ d : EntryNo, d ≠ e ∧ s.subs[d].state ≠ .idle ∧ s.subs[d].source = source ∧ s.subs[d].tag = tag := by
  simp only [State.pairTaken, allEntries, List.any_eq_true, List.mem_finRange, true_and, Bool.and_eq_true, bne_iff_ne,
    beq_iff_eq, SubState.used_iff, and_assoc]

section Subscribe

variable {s : State} {entry source tag : Byte} {e : EntryNo}

theorem State.subscribe_badArg (on : ¬ (s.station = .unconfigured ∨ s.station = .leaving))
    (bad : 16 ≤ entry.toNat ∨ source.toNat = 0 ∨ 32 ≤ source.toNat ∨ source.toNat = s.config.address.toNat) :
    State.subscribe entry source tag s = s.refuse .badArg := by
  rw [State.subscribe, if_neg on]
  by_cases number : 16 ≤ entry.toNat
  · rw [entryArg_of_ge number]
  have entered : entryArg entry = some ⟨entry.toNat, Nat.lt_of_not_le number⟩ := entryArg_of_lt rfl
  by_cases range : source.toNat = 0 ∨ 32 ≤ source.toNat
  · rw [entered, addressArg_refuses range]
  · have high : source.toNat ≤ 31 := by omega
    have own : source.toNat = s.config.address.toNat := by omega
    rw [entered, addressArg_accepts (by omega) high]
    exact if_pos ((setWidth_eq_address_iff high _).mpr own)

/-- With good arguments the entry's own state is looked at first, and then the pairs of the others. -/
theorem State.subscribe_checked (on : ¬ (s.station = .unconfigured ∨ s.station = .leaving))
    (number : entry.toNat = e.val) (low : 1 ≤ source.toNat) (high : source.toNat ≤ 31)
    (other : source.toNat ≠ s.config.address.toNat) :
    State.subscribe entry source tag s =
      if s.subs[e].state ≠ .idle then s.refuse .busy
      else if s.pairTaken e (source.setWidth 5) tag then s.refuse .duplicate
      else (s.modSub e (Subscription.following (source.setWidth 5) tag)).accept := by
  rw [State.subscribe, if_neg on, entryArg_of_lt number, addressArg_accepts low high]
  exact if_neg fun own => other ((setWidth_eq_address_iff high _).mp own)

end Subscribe

/-! ## POP and READ_EVENT (R138, R156) -/

theorem EventRecord.bytes_eq (r : EventRecord) :
    r.bytes = [r.event.kindByte, r.event.subjectByte, r.event.detailByte, if r.cycle = none then 0 else 1,
      (r.cycle.getD 0).extractLsb' 8 8, (r.cycle.getD 0).extractLsb' 0 8] := by
  obtain ⟨event, cycle⟩ := r
  cases cycle <;> rfl

end Sys2Proof.Machine

namespace Sys2Proof.Proofs

open Sys2Proof.Machine Sys2Proof.Safety

/-- Settles O17, check by check. -/
theorem subscribeChecksInOrder : Obligations.SubscribeChecksInOrder := by
  intro s entry source tag takes
  refine ⟨fun off => State.request_replies takes (if_pos off), fun configured stays => ?_⟩
  have on : ¬ (s.station = .unconfigured ∨ s.station = .leaving) := not_or.mpr ⟨configured, stays⟩
  refine ⟨fun bad => State.request_replies takes (State.subscribe_badArg on bad), fun e number low high other => ?_⟩
  have checked := State.subscribe_checked (tag := tag) on number low high other
  refine ⟨fun used => ?_, fun idle => ?_⟩
  · rw [if_pos used] at checked
    exact State.request_replies takes checked
  · rw [if_neg (not_not_intro idle)] at checked
    refine ⟨fun taken => ?_, fun fresh => ?_⟩
    · rw [if_pos ((s.pairTaken_iff e _ tag).mpr taken)] at checked
      exact State.request_replies takes checked
    · have free : ¬ s.pairTaken e (source.setWidth 5) tag = true := fun taken =>
        have ⟨d, differ, used, pair⟩ := (s.pairTaken_iff e _ tag).mp taken
        fresh d differ used pair
      rw [if_neg free] at checked
      exact State.request_replies takes checked

/-- Settles O18, by the entry's number and its state. -/
theorem unsubscribeFreesTheQueue : Obligations.UnsubscribeFreesTheQueue := by
  intro s entry takes
  refine ⟨fun bad => ?_, fun e number => ⟨fun idle => ?_, fun used => ?_⟩⟩
  · exact State.request_replies takes (by simp only [State.unsubscribe, entryArg_of_ge bad]; rfl)
  · exact State.request_replies takes (by simp only [State.unsubscribe, entryArg_of_lt number, if_pos idle]; rfl)
  · exact State.request_replies takes (by simp only [State.unsubscribe, entryArg_of_lt number, if_neg used]; rfl)

/-- Settles O19, by the queue that each read looks at. -/
theorem consumingReadsReturnTheHead : Obligations.ConsumingReadsReturnTheHead := by
  refine ⟨fun s entry takes => ⟨fun bad => ?_, fun e number => ⟨fun empty => ?_, fun b rest head => ?_⟩⟩,
    fun s takes => ⟨fun empty => ?_, fun r rest head => ?_⟩⟩
  · exact State.request_replies takes (by simp only [State.pop, entryArg_of_ge bad]; rfl)
  · exact State.request_replies takes (by simp only [State.pop, entryArg_of_lt number, empty]; rfl)
  · exact State.request_replies takes (by simp only [State.pop, entryArg_of_lt number, head]; rfl)
  · exact State.request_replies takes (by simp only [State.readEvent, empty]; rfl)
  · rw [← r.bytes_eq]
    exact State.request_replies takes (by simp only [State.readEvent, head]; rfl)

end Sys2Proof.Proofs
end

section
/-! PROOF. The interrupt output, and what a command may do to the event queue, so the law of the queue after every step:
O52 and O54. -/

namespace Sys2Proof.Machine

open Sys2Proof.Safety

/-! ## The interrupt output (R159, R178) -/

theorem State.interruptAsserted_iff (s : State) : s.interruptAsserted = true ↔ s.events ≠ [] := by
  simp [State.interruptAsserted]

theorem State.hint_low_iff (s : State) : s.hint = false ↔ s.events ≠ [] := by
  rw [← s.interruptAsserted_iff, State.hint, Bool.not_eq_false']

/-! ## What a command may do to the event queue -/

/-- The changes of the event queue, from `s` to `t`, that one command may make (R160). -/
inductive EventsStep (s t : State) : Prop where
  /-- Records arrive, if any. -/
  | posts (h : Posts s.events t.events)
  /-- A device reset. -/
  | resets (empty : t.events = []) (station : t.station = .unconfigured)
  /-- The commit of a READ_EVENT, at the last byte of its response. -/
  | commits (k : Taken) (n : Nat) (responds : s.link = .response k n) (target : k.commit = some .eventQueue)
      (last : k.response.length ≤ n + 1) (h : t.events = s.events.tail)

theorem EventsStep.same {s t : State} (h : t.events = s.events) : EventsStep s t := .posts (.of_eq h)

theorem Conserves.eventsStep {s t : State} (k : Conserves s t) : EventsStep s t := .posts k.events

theorem EventsStep.legal {s t : State} (h : EventsStep s t) (L : EventsLegal s) : EventsLegal t := by
  cases h with
  | posts p => exact eventsLegal_posts L p
  | resets empty => exact Proofs.resetStateIsLegal.events.congr empty
  | commits _ _ _ _ _ tail => exact eventsLegal_tail L tail

/-! ## What each request does to the queue -/

theorem State.configure_posts (address : Byte) (seed : Half) (f b : Bool) (s : State) :
    Posts s.events (State.configure address seed f b s).2.events := by
  unfold State.configure
  split
  · split
    · exact .refl _
    · exact .one _ _
  · exact .refl _

theorem State.startRequest_posts (s : State) : Posts s.events s.startRequest.2.events := by
  unfold State.startRequest
  split
  · exact ((s.switchOnReceiver_conserves.trans (State.startTimer_conserves _)).trans
      (State.enter_conserves _ _ _)).events
  · exact .refl _

theorem State.stopRequest_posts (s : State) : Posts s.events s.stopRequest.2.events := by
  unfold State.stopRequest
  split
  · exact .refl _
  · exact .refl _
  · rw [State.accept_state]; exact s.stopEarly_conserves.events
  · rw [State.accept_state]; exact s.stopEarly_conserves.events
  · rw [State.accept_state]; exact s.stopActive_conserves.events
  · exact .refl _

theorem State.openTx_events (stream tag wanted : Byte) (s : State) :
    (State.openTx stream tag wanted s).2.events = s.events := by
  unfold State.openTx
  split
  · rfl
  · split
    · rfl
    · split
      · rfl
      · split
        · rfl
        · split <;> rfl

theorem State.closeTx_posts (stream : Byte) (s : State) : Posts s.events (State.closeTx stream s).2.events := by
  unfold State.closeTx
  split
  · exact .refl _
  · split
    · exact .refl _
    · exact .refl _
    · rw [State.accept_state]; exact (s.closeStream_conserves _).events
    · rw [State.accept_state]; exact (s.closeStream_conserves _).events
    · rw [State.accept_state]; exact (s.closeFailed_conserves _).events

theorem State.push_events (stream : Byte) (payload : Payload) (s : State) :
    (State.push stream payload s).2.events = s.events := by
  unfold State.push
  split
  · rfl
  · split
    · rfl
    · split
      · rfl
      · split <;> rfl

theorem State.subscribe_events (entry source tag : Byte) (s : State) :
    (State.subscribe entry source tag s).2.events = s.events := by
  unfold State.subscribe
  split
  · rfl
  · split
    · split
      · rfl
      · split
        · rfl
        · split <;> rfl
    · rfl
    · rfl

theorem State.unsubscribe_events (entry : Byte) (s : State) : (State.unsubscribe entry s).2.events = s.events := by
  unfold State.unsubscribe
  split
  · rfl
  · split <;> rfl

theorem RequestCode.serve_posts (c : RequestCode) (args : List Byte) (s : State) :
    Posts s.events (c.serve args s).2.events := by
  cases c with
  | configure => exact State.configure_posts ..
  | start => exact s.startRequest_posts
  | stop => exact s.stopRequest_posts
  | reset => exact .refl _
  | openTx => exact .of_eq (State.openTx_events ..)
  | closeTx => exact State.closeTx_posts ..
  | push => exact .of_eq (State.push_events ..)
  | subscribe => exact .of_eq (State.subscribe_events ..)
  | unsubscribe => exact .of_eq (State.unsubscribe_events ..)
  | pop => exact .of_eq (congrArg State.events (State.pop_state ..))
  | readEvent => exact .of_eq (congrArg State.events s.readEvent_state)
  | readStation => exact .refl _
  | readStream => exact .of_eq (congrArg State.events (State.readStream_state ..))
  | readSub => exact .of_eq (congrArg State.events (State.readSub_state ..))
  | readSlot => exact .of_eq (congrArg State.events (State.readSlot_state ..))

/-! ## What the link and the begin of a slot occurrence do to the queue -/

theorem State.request_eventsStep {s : State} {code : Byte} {args : List Byte} {serve : State → Reply × State}
    (served : Posts s.events (serve s).2.events) : EventsStep s (s.request code args serve) := by
  rcases s.request_cases code args serve with ⟨-, -, taken⟩ | ⟨-, unchanged⟩
  · rw [taken]; exact .posts served
  · rw [unchanged]; exact .same rfl

theorem State.unlessHeld_eventsStep {s : State} {f : State → State} (h : EventsStep s (f s)) :
    EventsStep s (s.unlessHeld f) := by
  rcases s.unlessHeld_cases f with ⟨-, held⟩ | ⟨-, works⟩
  · rw [held]; exact .same rfl
  · rw [works]; exact h

theorem State.deviceReset_eventsStep (s : State) : EventsStep s s.deviceReset := .resets rfl rfl

/-- At the last byte of a response, a commit pending on the event queue takes its head, and no other touches it. -/
theorem State.finishTransaction_eventsStep {s : State} {k : Taken} {n : Nat} (responds : s.link = .response k n)
    (last : k.response.length ≤ n + 1) : EventsStep s (s.finishTransaction k) := by
  have finished : (s.finishTransaction k).events = (s.commit k.commit).events := rfl
  rcases s.commit_cases k.commit with same | ⟨target, event⟩ | ⟨e, block, rest, -, -, popped⟩
  · exact .same (finished.trans (congrArg State.events same))
  · exact .commits k n responds target last (finished.trans (congrArg State.events event))
  · exact .same (by rw [finished, popped])

theorem State.takeByte_eventsStep (s : State) (b : Byte) : EventsStep s (s.takeByte b) := by
  rcases s.takeByte_cases b with ⟨l, moved⟩ | ⟨code, serve, taken, known⟩ | ⟨-, reset⟩ | ⟨k, n, responds, last, ends⟩
  · rw [moved]; exact .same rfl
  · rw [taken]
    rcases known with rfl | ⟨c, args, rfl⟩
    · exact .same rfl
    · exact .posts (c.serve_posts args s)
  · rw [reset]; exact s.deviceReset_eventsStep
  · rw [ends]; exact State.finishTransaction_eventsStep responds last

theorem State.beginSlot_events (s : State) (k : SlotNo) : (s.beginSlot k).events = s.events := by
  unfold State.beginSlot
  split
  · split <;> rfl
  · split
    · unfold State.sendOwned
      split
      · rfl
      · split <;> rfl
    · rfl
  all_goals rfl

/-! ## What every command does to the queue -/

theorem exec_eventsStep {c : Instr} {s t : State} (he : exec c s = .next t) : EventsStep s t := by
  by_cases hc : raised c = true
  · exact (exec_conserves hc he).eventsStep
  cases c with
  | configure => cases he; exact State.request_eventsStep (State.configure_posts ..)
  | start => cases he; exact State.request_eventsStep s.startRequest_posts
  | stop => cases he; exact State.request_eventsStep s.stopRequest_posts
  | openTx => cases he; exact State.request_eventsStep (.of_eq (State.openTx_events ..))
  | closeTx => cases he; exact State.request_eventsStep (State.closeTx_posts ..)
  | push => cases he; exact State.request_eventsStep (.of_eq (State.push_events ..))
  | subscribe => cases he; exact State.request_eventsStep (.of_eq (State.subscribe_events ..))
  | unsubscribe => cases he; exact State.request_eventsStep (.of_eq (State.unsubscribe_events ..))
  | pop => cases he; exact State.request_eventsStep (.of_eq (congrArg State.events (State.pop_state ..)))
  | readEvent => cases he; exact State.request_eventsStep (.of_eq (congrArg State.events s.readEvent_state))
  | readStation => cases he; exact State.request_eventsStep (.refl _)
  | readStream => cases he; exact State.request_eventsStep (.of_eq (congrArg State.events (State.readStream_state ..)))
  | readSub => cases he; exact State.request_eventsStep (.of_eq (congrArg State.events (State.readSub_state ..)))
  | readSlot => cases he; exact State.request_eventsStep (.of_eq (congrArg State.events (State.readSlot_state ..)))
  | unknownCode =>
    cases he
    split
    · exact State.request_eventsStep (.refl _)
    · exact .same rfl
  | reset =>
    cases he
    refine State.unlessHeld_eventsStep ?_
    split
    · exact s.deviceReset_eventsStep
    · exact .same rfl
  | transactionBegin =>
    cases he
    split
    · exact .same rfl
    · split <;> exact .same rfl
  | transactionEnd =>
    cases he
    split
    · exact .same rfl
    · split <;> exact .same rfl
  | consumingReadCommit =>
    cases he
    refine State.unlessHeld_eventsStep ?_
    split
    · rename_i k n responds
      split
      · rename_i due
        exact State.finishTransaction_eventsStep responds due.2.ge
      · exact .same rfl
    all_goals exact .same rfl
  | resetInputAsserted =>
    cases he
    split
    · exact .same rfl
    · exact .resets rfl rfl
  | resetInputReleased =>
    cases he
    split <;> exact .same rfl
  | slotOccurrenceBegin k =>
    cases he
    rcases s.atEvent_cases (.slotBegin k) (fun _ s => (s.openDivision.beginSlot k).nextIs (.slotEnd k))
      with ⟨u, -, -, -, -, due⟩ | unchanged
    · rw [due]; exact .same (s.openDivision.beginSlot_events k)
    · rw [unchanged]; exact .same rfl
  | byteComplete b => cases he; exact State.unlessHeld_eventsStep (s.takeByte_eventsStep b)
  | _ => exact absurd rfl hc

end Sys2Proof.Machine

namespace Sys2Proof.Proofs

open Sys2Proof.Machine Sys2Proof.Safety

/-- Settles O54: a step with no command waiting leaves the queue alone, and a command changes it in one of the ways that
keep its law. -/
theorem stepKeepsEventQueueLaw : Obligations.StepKeepsEventQueueLaw := by
  intro s t L he
  unfold step at he
  split at he
  · cases he
    exact L.congr rfl
  · exact (exec_eventsStep he).legal (L.congr rfl)

/-- Settles O52: records that arrive leave those before them as they are, and a command that does anything else to the
queue is a device reset or the commit of a READ_EVENT. -/
theorem eventsLeaveOnlyByCommitOrReset : Obligations.EventsLeaveOnlyByCommitOrReset := by
  refine ⟨fun s => ⟨s.interruptAsserted_iff, s.hint_low_iff⟩, fun c s t he => ?_⟩
  cases exec_eventsStep he with
  | posts p => exact .inl p.isPrefix
  | resets empty station => exact .inr (.inl ⟨empty, station⟩)
  | commits k n responds target last tail => exact .inr (.inr ⟨tail, k, n, responds, target, last⟩)

end Sys2Proof.Proofs
end

section
/-! PROOF. The codes of the requests and the ways in which a request is answered: O22 and O23. -/

namespace Sys2Proof.Machine

open Sys2Proof.Safety

/-! ## Request codes (R166, R176) -/

theorem RequestCode.ofByte_byte (c : RequestCode) : RequestCode.ofByte c.byte = some c := by cases c <;> rfl

theorem RequestCode.byte_of_ofByte {b : Byte} {c : RequestCode} (h : RequestCode.ofByte b = some c) : b = c.byte := by
  unfold RequestCode.ofByte at h
  split at h <;> cases h <;> exact BitVec.eq_of_toNat_eq ‹_›

/-- The codes that name a request are those of the fifteen requests. -/
theorem RequestCode.ofByte_eq_none {b : Byte} (h : ∀ c : RequestCode, b ≠ c.byte) : RequestCode.ofByte b = none := by
  cases hc : RequestCode.ofByte b with
  | none => rfl
  | some c => exact absurd (RequestCode.byte_of_ofByte hc) (h c)

/-! ## The ways in which a request is answered (R163, R169, R170) -/

/-- The bytes of the record that a commit on this queue will take. -/
def State.headBytes (s : State) : CommitTarget → Option (List Byte)
  | .eventQueue => s.events.head?.map EventRecord.bytes
  | .receiveQueue e => s.subs[e].queue.head?.map StoredBlock.bytes

theorem commitLegal_iff (s : State) (t : Taken) :
    commitLegal s t = true ↔ ∀ target, t.commit = some target → s.headBytes target = some t.response := by
  unfold commitLegal
  cases t.commit with
  | none => exact iff_of_true rfl nofun
  | some target => cases target <;> simp [State.headBytes]

/-- The requests that are consuming reads (R170). -/
def RequestCode.consuming : RequestCode → Bool
  | .pop | .readEvent => true
  | _ => false

theorem RequestCode.consuming_iff (c : RequestCode) : c.consuming = true ↔ c = .pop ∨ c = .readEvent := by
  cases c <;> simp [RequestCode.consuming]

/-- The ways in which a request, a consuming read or not, is answered in state `s`. -/
inductive Replies (consuming : Bool) (s : State) : Reply × State → Prop
  /-- Refused, or EMPTY: nothing changes. -/
  | refuses (status : Status) (refusal : status ≠ .ok) : Replies consuming s (Reply.bare status, s)
  /-- Accepted: the blocks change, the levels of the pins do not. -/
  | accepts (u : State) (resetHeld : u.resetHeld = s.resetHeld) (selectLow : u.selectLow = s.selectLow) :
      Replies consuming s (Reply.bare .ok, u)
  /-- A snapshot read. -/
  | reads (response : List Byte) : Replies consuming s (Reply.read response, s)
  /-- A consuming read that returns the record at the head of its queue. -/
  | consumes (is : consuming = true) (target : CommitTarget) (response : List Byte)
      (head : s.headBytes target = some response) : Replies consuming s (Reply.consuming response target, s)

section
variable {consuming : Bool} {s : State} {r : Reply × State}

theorem Replies.resetHeld (h : Replies consuming s r) : r.2.resetHeld = s.resetHeld := by
  cases h with
  | accepts u same _ => exact same
  | _ => rfl

theorem Replies.selectLow (h : Replies consuming s r) : r.2.selectLow = s.selectLow := by
  cases h with
  | accepts u _ same => exact same
  | _ => rfl

/-- A pending commit's response is the record that the commit will take. -/
theorem Replies.commitLegal (h : Replies consuming s r) (code : Byte) :
    commitLegal r.2 { code := code, status := r.1.status, response := r.1.response, commit := r.1.commit } = true := by
  cases h with
  | consumes _ target response head => exact (commitLegal_iff _ _).mpr fun _ same => by cases same; exact head
  | _ => rfl

theorem Replies.of_conserves {u : State} (k : Conserves s u) : Replies consuming s u.accept :=
  .accepts u k.resetHeld k.selectLow

end

/-! ### Each request -/

theorem State.configure_replies (address : Byte) (seed : Half) (f b : Bool) (s : State) :
    Replies false s (State.configure address seed f b s) := by
  unfold State.configure
  split
  · split
    · exact .refuses _ nofun
    · exact .accepts _ rfl rfl
  · exact .refuses _ nofun

theorem State.startRequest_replies (s : State) : Replies false s s.startRequest := by
  unfold State.startRequest
  split
  · exact .of_conserves
      ((s.switchOnReceiver_conserves.trans (State.startTimer_conserves _)).trans (State.enter_conserves _ _ _))
  · exact .refuses _ nofun

theorem State.stopRequest_replies (s : State) : Replies false s s.stopRequest := by
  unfold State.stopRequest
  split
  · exact .refuses _ nofun
  · exact .of_conserves (.refl s)
  · exact .of_conserves s.stopEarly_conserves
  · exact .of_conserves s.stopEarly_conserves
  · exact .of_conserves s.stopActive_conserves
  · exact .of_conserves (.refl s)

theorem State.openTx_replies (stream tag wanted : Byte) (s : State) :
    Replies false s (State.openTx stream tag wanted s) := by
  unfold State.openTx
  split
  · exact .refuses _ nofun
  · split
    · exact .refuses _ nofun
    · split
      · exact .refuses _ nofun
      · split
        · exact .refuses _ nofun
        · split
          · exact .refuses _ nofun
          · exact .accepts _ rfl rfl

theorem State.closeTx_replies (stream : Byte) (s : State) : Replies false s (State.closeTx stream s) := by
  unfold State.closeTx
  split
  · exact .refuses _ nofun
  · split
    · exact .refuses _ nofun
    · exact .refuses _ nofun
    · exact .of_conserves (s.closeStream_conserves _)
    · exact .of_conserves (s.closeStream_conserves _)
    · exact .of_conserves (s.closeFailed_conserves _)

theorem State.push_replies (stream : Byte) (payload : Payload) (s : State) :
    Replies false s (State.push stream payload s) := by
  unfold State.push
  split
  · exact .refuses _ nofun
  · split
    · exact .refuses _ nofun
    · split
      · exact .refuses _ nofun
      · split
        · exact .refuses _ nofun
        · exact .accepts _ rfl rfl

theorem State.subscribe_replies (entry source tag : Byte) (s : State) :
    Replies false s (State.subscribe entry source tag s) := by
  unfold State.subscribe
  split
  · exact .refuses _ nofun
  · split
    · split
      · exact .refuses _ nofun
      · split
        · exact .refuses _ nofun
        · split
          · exact .refuses _ nofun
          · exact .accepts _ rfl rfl
    · exact .refuses _ nofun
    · exact .refuses _ nofun

theorem State.unsubscribe_replies (entry : Byte) (s : State) : Replies false s (State.unsubscribe entry s) := by
  unfold State.unsubscribe
  split
  · exact .refuses _ nofun
  · split
    · exact .refuses _ nofun
    · exact .accepts _ rfl rfl

theorem State.pop_replies (entry : Byte) (s : State) : Replies true s (State.pop entry s) := by
  unfold State.pop
  split
  · exact .refuses _ nofun
  · split
    · exact .refuses _ nofun
    · rename_i e _ _ block rest queue
      exact .consumes rfl (.receiveQueue e) block.bytes (by rw [State.headBytes, queue]; rfl)

theorem State.readEvent_replies (s : State) : Replies true s s.readEvent := by
  unfold State.readEvent
  split
  · exact .refuses _ nofun
  · rename_i r rest queue
    exact .consumes rfl .eventQueue r.bytes (by rw [State.headBytes, queue]; rfl)

theorem State.readStream_replies (stream : Byte) (s : State) : Replies false s (State.readStream stream s) := by
  unfold State.readStream
  split
  · exact .refuses _ nofun
  · exact .reads _

theorem State.readSub_replies (entry : Byte) (s : State) : Replies false s (State.readSub entry s) := by
  unfold State.readSub
  split
  · exact .refuses _ nofun
  · exact .reads _

theorem State.readSlot_replies (slot : Byte) (s : State) : Replies false s (State.readSlot slot s) := by
  unfold State.readSlot
  split
  · exact .refuses _ nofun
  · exact .reads _

theorem State.unknownRequest_replies (s : State) : Replies false s s.unknownRequest := .refuses _ nofun

/-- Every request is answered in one of these ways. -/
theorem RequestCode.serve_replies (c : RequestCode) (args : List Byte) (s : State) :
    Replies c.consuming s (c.serve args s) := by
  cases c with
  | configure => exact State.configure_replies ..
  | start => exact s.startRequest_replies
  | stop => exact s.stopRequest_replies
  | reset => exact .of_conserves (.refl s)
  | openTx => exact State.openTx_replies ..
  | closeTx => exact State.closeTx_replies ..
  | push => exact State.push_replies ..
  | subscribe => exact State.subscribe_replies ..
  | unsubscribe => exact State.unsubscribe_replies ..
  | pop => exact State.pop_replies ..
  | readEvent => exact s.readEvent_replies
  | readStation => exact .reads _
  | readStream => exact State.readStream_replies ..
  | readSub => exact State.readSub_replies ..
  | readSlot => exact State.readSlot_replies ..

end Sys2Proof.Machine

namespace Sys2Proof.Proofs

open Sys2Proof.Machine Sys2Proof.Safety

/-- Settles O22: a code outside the list is the code of no request. -/
theorem unknownCodeDrawsBadCode : Obligations.UnknownCodeDrawsBadCode := by
  intro s code takes outside
  have unknown : RequestCode.ofByte code = none :=
    RequestCode.ofByte_eq_none fun c named => outside (by rw [named]; cases c <;> decide)
  exact (congrArg Host.Outcome.next (if_pos unknown)).trans (State.request_replies takes rfl)

/-- Settles O23, by the way in which the request is answered. -/
theorem refusalChangesOnlyTheLink : Obligations.RefusalChangesOnlyTheLink := by
  intro c args s reply t served
  have answered := c.serve_replies args s
  rw [served] at answered
  cases answered with
  | refuses status _ => exact ⟨fun _ => ⟨rfl, rfl, rfl⟩, fun pending => absurd rfl pending⟩
  | accepts => exact ⟨fun refused => absurd rfl refused, fun pending => absurd rfl pending⟩
  | reads response => exact ⟨fun refused => absurd rfl refused, fun pending => absurd rfl pending⟩
  | consumes is => exact ⟨fun refused => absurd rfl refused, fun _ => ⟨c.consuming_iff.mp is, rfl, rfl⟩⟩

end Sys2Proof.Proofs
end

section
/-! PROOF. The laws of the host link after every step: O59. -/

namespace Sys2Proof.Machine

open Sys2Proof.Safety

/-! ## The link alone (R162, R170) -/

/-- A request taken leaves the laws of the link. -/
theorem taken_linkLegal {s : State} (L : LinkLegal s) (held : s.resetHeld = false) (busy : s.link ≠ .idle) (code : Byte)
    {consuming : Bool} {serve : State → Reply × State} (answered : Replies consuming s (serve s)) :
    LinkLegal (s.taken code serve) :=
  linkLegal_phase (answered.resetHeld.trans held) (answered.selectLow.trans (select_of_phase L held busy)) nofun
    (answered.commitLegal code)

/-- The end of a transaction leaves the laws of the link. -/
theorem finish_linkLegal {s : State} (L : LinkLegal s) (held : s.resetHeld = false) (busy : s.link ≠ .idle)
    (k : Taken) : LinkLegal (s.finishTransaction k) := by
  obtain ⟨resetHeld, selectLow⟩ := s.commit_levels k.commit
  exact linkLegal_phase (resetHeld.trans held) (selectLow.trans (select_of_phase L held busy)) nofun rfl

/-- The link moves on to a phase that holds what it should. -/
theorem move_linkLegal {s : State} (L : LinkLegal s) (held : s.resetHeld = false) (busy : s.link ≠ .idle) {l : Link}
    (stays : l ≠ .idle) (phase : phaseLegal { s with link := l } = true) : LinkLegal { s with link := l } :=
  have select := select_of_phase L held busy
  linkLegal_phase held select stays phase

theorem takeByte_linkLegal {s : State} (L : LinkLegal s) (held : s.resetHeld = false) (b : Byte) :
    LinkLegal (s.takeByte b) := by
  have phase := L.phase
  unfold State.takeByte
  split
  · exact L
  · exact L
  · rename_i hl
    have busy : s.link ≠ .idle := by rw [hl]; exact nofun
    split
    · exact taken_linkLegal L held busy b s.unknownRequest_replies
    · exact (deviceReset_blocks held).2
    · rename_i c _ named
      split
      · exact taken_linkLegal L held busy b (c.serve_replies [] s)
      · refine move_linkLegal L held busy nofun ?_
        simp only [phaseLegal, named, decide_eq_true_eq]
        exact Nat.pos_of_ne_zero ‹_›
  · rename_i code received hl
    have busy : s.link ≠ .idle := by rw [hl]; exact nofun
    split
    · exact L
    · rename_i c named
      split
      · refine move_linkLegal L held busy nofun ?_
        simpa [phaseLegal, named] using ‹received.length + 1 < c.argumentBytes›
      · exact taken_linkLegal L held busy code (c.serve_replies _ s)
  · rename_i k hl
    rw [phaseLegal, hl] at phase
    exact move_linkLegal L held (by rw [hl]; exact nofun) nofun phase
  · rename_i k hl
    rw [phaseLegal, hl] at phase
    have busy : s.link ≠ .idle := by rw [hl]; exact nofun
    split
    · exact move_linkLegal L held busy nofun rfl
    · rename_i answered
      refine move_linkLegal L held busy nofun ?_
      simp only [phaseLegal, Bool.and_eq_true, decide_eq_true_eq]
      exact ⟨phase, List.length_pos_iff.mpr answered⟩
  · rename_i k n hl
    have busy : s.link ≠ .idle := by rw [hl]; exact nofun
    split
    · refine move_linkLegal L held busy nofun ?_
      simp only [phaseLegal, hl, Bool.and_eq_true, decide_eq_true_eq] at phase ⊢
      exact ⟨phase.1, ‹_›⟩
    · exact finish_linkLegal L held busy k

/-! ## Each kind of command -/

theorem request_linkLegal {s : State} (L : LinkLegal s) {code : Byte} {args : List Byte} {consuming : Bool}
    {serve : State → Reply × State} (answered : Replies consuming s (serve s)) :
    LinkLegal (s.request code args serve) := by
  rcases s.request_cases code args serve with ⟨held, awaits, taken⟩ | ⟨-, unchanged⟩
  · rw [taken]
    exact taken_linkLegal L held (fun idle => by rw [idle] at awaits; cases awaits) code answered
  · rw [unchanged]; exact L

theorem unlessHeld_linkLegal {s : State} (L : LinkLegal s) {f : State → State}
    (h : s.resetHeld = false → LinkLegal (f s)) : LinkLegal (s.unlessHeld f) := by
  rcases s.unlessHeld_cases f with ⟨-, held⟩ | ⟨released, works⟩
  · rw [held]; exact L
  · rw [works]; exact h released

theorem execTransactionBegin_linkLegal {s t : State} (L : LinkLegal s) (he : execTransactionBegin s = .next t) :
    LinkLegal t := by
  cases he
  split
  · exact L
  · rename_i high
    split
    · rename_i idle
      exact linkLegal_phase idle.1 rfl nofun rfl
    · rename_i none
      exact ⟨L.phase, fun held => absurd ⟨held, (L.idleBySelect held).mpr (Bool.eq_false_iff.mpr high)⟩ none,
        L.heldQuiet⟩

theorem execTransactionEnd_linkLegal {s t : State} (L : LinkLegal s) (he : execTransactionEnd s = .next t) :
    LinkLegal t := by
  cases he
  split
  · exact L
  · split
    · rename_i held
      exact ⟨L.phase, fun released => (nomatch held.symm.trans released), L.heldQuiet⟩
    · rename_i released
      exact ⟨rfl, fun _ => iff_of_true rfl rfl, fun held => absurd held released⟩

theorem execConsumingReadCommit_linkLegal {s t : State} (L : LinkLegal s) (he : execConsumingReadCommit s = .next t) :
    LinkLegal t := by
  cases he
  refine unlessHeld_linkLegal L fun held => ?_
  split
  · rename_i k n hl
    split
    · exact finish_linkLegal L held (by rw [hl]; exact nofun) k
    · exact L
  all_goals exact L

theorem execResetInputAsserted_linkLegal {s t : State} (L : LinkLegal s) (he : execResetInputAsserted s = .next t) :
    LinkLegal t := by
  cases he
  split
  · exact L
  · refine ⟨?_, nofun, fun _ => ⟨rfl, ?_⟩⟩
    · cases hl : s.selectLow <;> simp [phaseLegal, State.deviceReset, hl]
    · cases hl : s.selectLow <;> simp [State.deviceReset, hl]

theorem execResetInputReleased_linkLegal {s t : State} (L : LinkLegal s) (he : execResetInputReleased s = .next t) :
    LinkLegal t := by
  cases he
  split
  · refine ⟨?_, fun _ => ?_, nofun⟩
    · cases hl : s.selectLow <;> simp [phaseLegal]
    · cases hl : s.selectLow <;> simp
  · exact L

/-- The begin of a slot occurrence leaves the link and the levels of its pins. -/
theorem State.beginSlot_pins (s : State) (k : SlotNo) :
    (s.beginSlot k).link = s.link ∧ (s.beginSlot k).resetHeld = s.resetHeld ∧
      (s.beginSlot k).selectLow = s.selectLow := by
  unfold State.beginSlot
  split
  · split <;> exact ⟨rfl, rfl, rfl⟩
  · split
    · unfold State.sendOwned
      split
      · exact ⟨rfl, rfl, rfl⟩
      · split <;> exact ⟨rfl, rfl, rfl⟩
    · exact ⟨rfl, rfl, rfl⟩
  all_goals exact ⟨rfl, rfl, rfl⟩

theorem execSlotOccurrenceBegin_linkLegal {s t : State} {k : SlotNo} (L : LinkLegal s)
    (he : execSlotOccurrenceBegin k s = .next t) : LinkLegal t := by
  cases he
  rcases s.atEvent_cases (.slotBegin k) (fun _ s => (s.openDivision.beginSlot k).nextIs (.slotEnd k))
    with ⟨u, released, -, -, -, due⟩ | unchanged
  · rw [due]
    obtain ⟨link, resetHeld, selectLow⟩ := s.openDivision.beginSlot_pins k
    have events : s.events <+: (s.openDivision.beginSlot k).events := by
      rw [State.beginSlot_events]; exact List.prefix_refl _
    have queues (e : EntryNo) : s.subs[e].queue <+: (s.openDivision.beginSlot k).subs[e].queue := by
      rw [State.beginSlot_subs]; exact List.prefix_refl _
    refine ⟨phaseLegal_of_prefix link events queues L.phase, fun held => ?_, fun held => ?_⟩
    · exact (Eq.congr_left link).trans ((L.idleBySelect released).trans (Eq.congr_left selectLow).symm)
    · exact nomatch released.symm.trans (resetHeld.symm.trans held)
  · rw [unchanged]; exact L

/-- Every command leaves the laws of the link. -/
theorem exec_linkLegal {c : Instr} {s t : State} (L : LinkLegal s) (he : exec c s = .next t) : LinkLegal t := by
  by_cases hc : raised c = true
  · have station (held : s.resetHeld = true) : t.station = s.station := by
      rw [Proofs.heldResetKeepsEveryBlock c s t held L (by rintro rfl; cases hc) he]
    exact linkLegal_conserved L (exec_conserves hc he) station
  cases c with
  | configure => cases he; exact request_linkLegal L (State.configure_replies ..)
  | start => cases he; exact request_linkLegal L s.startRequest_replies
  | stop => cases he; exact request_linkLegal L s.stopRequest_replies
  | openTx => cases he; exact request_linkLegal L (State.openTx_replies ..)
  | closeTx => cases he; exact request_linkLegal L (State.closeTx_replies ..)
  | push => cases he; exact request_linkLegal L (State.push_replies ..)
  | subscribe => cases he; exact request_linkLegal L (State.subscribe_replies ..)
  | unsubscribe => cases he; exact request_linkLegal L (State.unsubscribe_replies ..)
  | pop => cases he; exact request_linkLegal L (State.pop_replies ..)
  | readEvent => cases he; exact request_linkLegal L s.readEvent_replies
  | readStation => cases he; exact request_linkLegal L (RequestCode.serve_replies .readStation [] s)
  | readStream => cases he; exact request_linkLegal L (State.readStream_replies ..)
  | readSub => cases he; exact request_linkLegal L (State.readSub_replies ..)
  | readSlot => cases he; exact request_linkLegal L (State.readSlot_replies ..)
  | unknownCode =>
    cases he
    split
    · exact request_linkLegal L s.unknownRequest_replies
    · exact L
  | reset =>
    cases he
    refine unlessHeld_linkLegal L fun held => ?_
    split
    · exact (deviceReset_blocks held).2
    · exact L
  | transactionBegin => exact execTransactionBegin_linkLegal L he
  | transactionEnd => exact execTransactionEnd_linkLegal L he
  | consumingReadCommit => exact execConsumingReadCommit_linkLegal L he
  | resetInputAsserted => exact execResetInputAsserted_linkLegal L he
  | resetInputReleased => exact execResetInputReleased_linkLegal L he
  | slotOccurrenceBegin => exact execSlotOccurrenceBegin_linkLegal L he
  | byteComplete b => cases he; exact unlessHeld_linkLegal L fun held => takeByte_linkLegal L held b
  | _ => exact absurd rfl hc

end Sys2Proof.Machine

namespace Sys2Proof.Proofs

open Sys2Proof.Machine Sys2Proof.Safety

/-- Settles O59: a step with no command waiting moves the listen timer alone, and every command keeps the laws. -/
theorem stepKeepsLinkLaws : Obligations.StepKeepsLinkLaws := by
  intro s t L he
  unfold step at he
  split at he
  · cases he
    exact ⟨L.phase, L.idleBySelect, L.heldQuiet⟩
  · rename_i c rest _
    have waiting : LinkLegal { s with pending := rest } := ⟨L.phase, L.idleBySelect, L.heldQuiet⟩
    exact exec_linkLegal waiting he

end Sys2Proof.Proofs
end

section
/-! PROOF. The bytes of a request and the command that stands for them: O24. -/

namespace Sys2Proof.Machine

open Sys2Proof.Safety

/-! ## Services that do not see the link (R163)

The bytes of a request move the phase of the link before the request is taken, so what it does must not depend on the
phase. -/

/-- `s` with its link in this phase. -/
def State.withLink (s : State) (l : Link) : State := { s with link := l }

/-- The service of a request neither looks at the link nor moves it. -/
def LinkBlind (serve : State → Reply × State) : Prop :=
  ∀ (s : State) (l : Link), serve (s.withLink l) = ((serve s).1, (serve s).2.withLink l)

theorem State.withLink_withLink (s : State) (l m : Link) : (s.withLink l).withLink m = s.withLink m := rfl

theorem State.accept_withLink (s : State) (l : Link) :
    (s.withLink l).accept = (s.accept.1, s.accept.2.withLink l) := rfl

theorem LinkBlind.taken {serve : State → Reply × State} (blind : LinkBlind serve) (s : State) (l : Link) (code : Byte) :
    (s.withLink l).taken code serve = s.taken code serve := by
  rw [State.taken, blind s l]
  rfl

/-! ### Closing a stream (R98, R116, R117) -/

section
variable (s : State) (l : Link) (i : StreamNo)

theorem State.condemnTransit_withLink : (s.withLink l).condemnTransit i = (s.condemnTransit i).withLink l := by
  have same : (s.withLink l).inTransit = s.inTransit := rfl
  unfold State.condemnTransit
  rw [same]
  split
  · split <;> rfl
  · rfl

theorem State.abandonLaneOf_withLink (n : LaneNo) :
    (s.withLink l).abandonLaneOf i n = (s.abandonLaneOf i n).withLink l := by
  have carries : (s.withLink l).laneCarries n i = s.laneCarries n i := rfl
  have lane : (s.withLink l).lanes = s.lanes := rfl
  unfold State.abandonLaneOf State.abandonLane
  rw [carries, lane]
  split
  · split <;> rfl
  · rfl

theorem State.leaveClaims_withLink : (s.withLink l).leaveClaims i = (s.leaveClaims i).withLink l := by
  unfold State.leaveClaims
  rw [State.abandonLaneOf_withLink, State.abandonLaneOf_withLink]
  rfl

theorem State.freeQueue_withLink : (s.withLink l).freeQueue i = (s.freeQueue i).withLink l := rfl

theorem State.markFinal_withLink : (s.withLink l).markFinal i = (s.markFinal i).withLink l := rfl

theorem State.beginClose_withLink : (s.withLink l).beginClose i = (s.beginClose i).withLink l := by
  unfold State.beginClose
  rw [State.freeQueue_withLink, State.condemnTransit_withLink, State.leaveClaims_withLink]
  rfl

theorem State.closeStream_withLink : (s.withLink l).closeStream i = (s.closeStream i).withLink l := by
  have mine (t : State) : (t.withLink l).anyMineOf i = t.anyMineOf i := rfl
  have station (t : State) : (t.withLink l).station = t.station := rfl
  unfold State.closeStream
  rw [State.beginClose_withLink]
  dsimp only
  rw [mine, station]
  split <;> rfl

theorem State.closeFailed_withLink : (s.withLink l).closeFailed i = (s.closeFailed i).withLink l := by
  unfold State.closeFailed
  rw [State.freeQueue_withLink, State.condemnTransit_withLink]
  rfl

end

/-! ### The requests with arguments -/

theorem State.configure_linkBlind (address : Byte) (seed : Half) (f b : Bool) :
    LinkBlind (State.configure address seed f b) := by
  intro s l
  have station : (s.withLink l).station = s.station := rfl
  unfold State.configure
  rw [station]
  split
  · split <;> rfl
  · rfl

theorem State.openTx_linkBlind (stream tag wanted : Byte) : LinkBlind (State.openTx stream tag wanted) := by
  intro s l
  have station : (s.withLink l).station = s.station := rfl
  have streams : (s.withLink l).streams = s.streams := rfl
  have taken (i : StreamNo) : (s.withLink l).tagTaken i tag = s.tagTaken i tag := rfl
  unfold State.openTx
  simp only [station, streams, taken]
  split
  · rfl
  · split
    · rfl
    · split
      · rfl
      · split
        · rfl
        · split <;> rfl

theorem State.closeTx_linkBlind (stream : Byte) : LinkBlind (State.closeTx stream) := by
  intro s l
  have streams : (s.withLink l).streams = s.streams := rfl
  unfold State.closeTx
  simp only [streams, State.closeStream_withLink, State.closeFailed_withLink]
  split
  · rfl
  · rename_i i _
    cases s.streams[i].state with
    | idle | closing => rfl
    | claiming | live => exact (s.closeStream i).accept_withLink l
    | failed => exact (s.closeFailed i).accept_withLink l

theorem State.push_linkBlind (stream : Byte) (payload : Payload) : LinkBlind (State.push stream payload) := by
  intro s l
  have streams : (s.withLink l).streams = s.streams := rfl
  have blocks (i : StreamNo) : (s.withLink l).blocksOf i = s.blocksOf i := rfl
  have given : (s.withLink l).givenBuffer = s.givenBuffer := rfl
  unfold State.push
  simp only [streams, blocks, given]
  split
  · rfl
  · split
    · rfl
    · split
      · rfl
      · split <;> rfl

theorem State.subscribe_linkBlind (entry source tag : Byte) : LinkBlind (State.subscribe entry source tag) := by
  intro s l
  have station : (s.withLink l).station = s.station := rfl
  have config : (s.withLink l).config = s.config := rfl
  have subs : (s.withLink l).subs = s.subs := rfl
  have taken (e : EntryNo) (a : Address) : (s.withLink l).pairTaken e a tag = s.pairTaken e a tag := rfl
  unfold State.subscribe
  simp only [station, config, subs, taken]
  split
  · rfl
  · split
    · split
      · rfl
      · split
        · rfl
        · split <;> rfl
    · rfl
    · rfl

theorem State.unsubscribe_linkBlind (entry : Byte) : LinkBlind (State.unsubscribe entry) := by
  intro s l
  have subs : (s.withLink l).subs = s.subs := rfl
  unfold State.unsubscribe
  simp only [subs]
  split
  · rfl
  · split <;> rfl

theorem State.pop_linkBlind (entry : Byte) : LinkBlind (State.pop entry) := by
  intro s l
  have subs : (s.withLink l).subs = s.subs := rfl
  unfold State.pop
  simp only [subs]
  split
  · rfl
  · rename_i e _
    cases s.subs[e].queue <;> rfl

theorem State.readStream_linkBlind (stream : Byte) : LinkBlind (State.readStream stream) := by
  intro s l
  unfold State.readStream
  split <;> rfl

theorem State.readSub_linkBlind (entry : Byte) : LinkBlind (State.readSub entry) := by
  intro s l
  unfold State.readSub
  split <;> rfl

theorem State.readSlot_linkBlind (slot : Byte) : LinkBlind (State.readSlot slot) := by
  intro s l
  unfold State.readSlot
  split <;> rfl

/-- No request that takes arguments sees the link. -/
theorem RequestCode.serve_linkBlind {c : RequestCode} (takesArguments : c.argumentBytes ≠ 0) (args : List Byte) :
    LinkBlind (c.serve args) := by
  cases c with
  | configure => exact State.configure_linkBlind _ _ _ _
  | openTx => exact State.openTx_linkBlind _ _ _
  | closeTx => exact State.closeTx_linkBlind _
  | push => exact State.push_linkBlind _ _
  | subscribe => exact State.subscribe_linkBlind _ _ _
  | unsubscribe => exact State.unsubscribe_linkBlind _
  | pop => exact State.pop_linkBlind _
  | readStream => exact State.readStream_linkBlind _
  | readSub => exact State.readSub_linkBlind _
  | readSlot => exact State.readSlot_linkBlind _
  | start | stop | reset | readEvent | readStation => exact absurd rfl takesArguments

/-! ## Bytes one after another (R162) -/

theorem exec_byteComplete {s : State} (held : s.resetHeld = false) (b : Byte) :
    exec (.byteComplete b) s = .next (s.takeByte b) :=
  congrArg Host.Outcome.next (State.unlessHeld_released held _)

theorem clockBytes_cons {s : State} (held : s.resetHeld = false) (b : Byte) (rest : List Byte) :
    clockBytes s (b :: rest) = clockBytes (s.takeByte b) rest := by
  rw [clockBytes, exec_byteComplete held]

theorem clockBytes_one {s : State} (held : s.resetHeld = false) (b : Byte) :
    clockBytes s [b] = .next (s.takeByte b) := clockBytes_cons held b []

section
variable {s : State} {b : Byte} {received : List Byte} {c : RequestCode}

/-- The code byte of a request without arguments takes it. -/
theorem State.takeByte_code_bare (code : s.link = .code) (noReset : c ≠ .reset) (none : c.argumentBytes = 0) :
    s.takeByte c.byte = s.taken c.byte (c.serve []) := by
  unfold State.takeByte
  simp only [code, c.ofByte_byte]
  cases c with
  | reset => exact absurd rfl noReset
  | _ => exact if_pos none

/-- The code byte of a request with arguments waits for them. -/
theorem State.takeByte_code_arguments (code : s.link = .code) (takesArguments : c.argumentBytes ≠ 0) :
    s.takeByte c.byte = s.withLink (.arguments c.byte []) := by
  unfold State.takeByte
  simp only [code, c.ofByte_byte]
  cases c with
  | reset => exact absurd rfl takesArguments
  | _ => exact if_neg takesArguments

theorem State.takeByte_argument (arguments : s.link = .arguments c.byte received)
    (more : received.length + 1 < c.argumentBytes) :
    s.takeByte b = s.withLink (.arguments c.byte (received ++ [b])) := by
  unfold State.takeByte
  simp only [arguments, c.ofByte_byte, if_pos more]
  rfl

theorem State.takeByte_lastArgument (arguments : s.link = .arguments c.byte received)
    (last : c.argumentBytes ≤ received.length + 1) :
    s.takeByte b = s.taken c.byte (c.serve (received ++ [b])) := by
  unfold State.takeByte
  simp only [arguments, c.ofByte_byte, if_neg (Nat.not_lt.mpr last)]

end

/-- The argument bytes still to come take the request with all its arguments, those already received first. -/
theorem clockBytes_arguments {s : State} {c : RequestCode} (held : s.resetHeld = false) {received rest : List Byte}
    (more : rest ≠ []) (all : (received ++ rest).length = c.argumentBytes) :
    clockBytes (s.withLink (.arguments c.byte received)) rest = .next (s.taken c.byte (c.serve (received ++ rest))) := by
  induction rest generalizing received with
  | nil => exact absurd rfl more
  | cons b rest ih =>
    rw [List.length_append, List.length_cons] at all
    have released : (s.withLink (.arguments c.byte received)).resetHeld = false := held
    rw [clockBytes_cons released]
    cases rest with
    | nil =>
      have takesArguments : c.argumentBytes ≠ 0 := by omega
      rw [State.takeByte_lastArgument (c := c) rfl all.ge, (RequestCode.serve_linkBlind takesArguments _).taken]
      rfl
    | cons d rest =>
      rw [List.length_cons] at all
      rw [State.takeByte_argument (c := c) rfl (by omega), State.withLink_withLink, ih nofun (by simp; omega),
        List.append_assoc]
      rfl

/-- The code byte of a request and then its arguments, from the CODE phase, take the request with these arguments. -/
theorem clockBytes_request {s : State} (held : s.resetHeld = false) (code : s.link = .code) {c : RequestCode}
    (noReset : c ≠ .reset) {args : List Byte} (all : args.length = c.argumentBytes) :
    clockBytes s (c.byte :: args) = .next (s.taken c.byte (c.serve args)) := by
  rw [clockBytes_cons held]
  cases args with
  | nil => rw [State.takeByte_code_bare code noReset all.symm]; rfl
  | cons a args =>
    have takesArguments : c.argumentBytes ≠ 0 := by rw [← all]; exact Nat.succ_ne_zero _
    rw [State.takeByte_code_arguments code takesArguments]
    exact clockBytes_arguments held nofun all

/-- In the CODE phase the command of a request does what the bytes of the request do. -/
theorem clockBytes_eq_request {s : State} (held : s.resetHeld = false) (code : s.link = .code) {c : RequestCode}
    (noReset : c ≠ .reset) {args : List Byte} (all : args.length = c.argumentBytes) {serve : State → Reply × State}
    (spelled : c.serve args = serve) :
    clockBytes s (c.byte :: args) = .next (s.request c.byte args serve) := by
  rw [clockBytes_request held code noReset all, spelled,
    State.request_taken held (by rw [code]; rfl)]

/-! ## Arguments of more than a byte (R176) -/

theorem halfBytes_append (h : Half) : h.extractLsb' 8 8 ++ h.extractLsb' 0 8 = h :=
  (BitVec.extractLsb'_append_extractLsb'_eq_extractLsb' rfl).trans BitVec.extractLsb'_eq_self

theorem choicesByte_founder (founder beacon : Bool) : (choicesByte founder beacon).getLsbD 0 = founder := by
  cases founder <;> cases beacon <;> rfl

theorem choicesByte_beacon (founder beacon : Bool) : (choicesByte founder beacon).getLsbD 1 = beacon := by
  cases founder <;> cases beacon <;> rfl

/-- The four argument bytes of CONFIGURE spell its operands. -/
theorem serve_configure (address : Byte) (seed : Half) (founder beacon : Bool) :
    RequestCode.configure.serve (address :: (halfBytes seed ++ [choicesByte founder beacon])) =
      State.configure address seed founder beacon := by
  funext s
  change State.configure address (seed.extractLsb' 8 8 ++ seed.extractLsb' 0 8)
    ((choicesByte founder beacon).getLsbD 0) ((choicesByte founder beacon).getLsbD 1) s = _
  rw [halfBytes_append, choicesByte_founder, choicesByte_beacon]

/-- The 25 argument bytes of PUSH spell its operands. -/
theorem serve_push (stream : Byte) (payload : Payload) :
    RequestCode.push.serve (stream :: payload.toList) = State.push stream payload := by
  have spelled : (Vector.ofFn fun i : Fin 24 => byteAt (stream :: payload.toList) (1 + i.val)) = payload := by
    ext i h
    simp [byteAt, Nat.add_comm 1]
  funext s
  exact congrArg (State.push stream · s) spelled

end Sys2Proof.Machine

namespace Sys2Proof.Proofs

open Sys2Proof.Machine Sys2Proof.Safety

/-- Settles O24, request by request: the bytes spell the arguments of the command. -/
theorem bytesTakeTheRequestTheySpell : Obligations.BytesTakeTheRequestTheySpell := by
  intro s held code
  refine ⟨fun address seed founder beacon => ?_, ?_, ?_, ?_, fun stream tag wanted => ?_, fun stream => ?_,
    fun stream payload => ?_, fun entry source tag => ?_, fun entry => ?_, fun entry => ?_, ?_, ?_, fun stream => ?_,
    fun entry => ?_, fun slot => ?_, fun unnamed unknown => ?_⟩
  · exact clockBytes_eq_request held code (c := .configure) nofun rfl (serve_configure ..)
  · exact clockBytes_eq_request held code (c := .start) nofun rfl rfl
  · exact clockBytes_eq_request held code (c := .stop) nofun rfl rfl
  · have reset : s.takeByte 0x1F = s.deviceReset := by rw [State.takeByte, code]; rfl
    have awaits : s.link.awaits RequestCode.reset.byte [] = true := by rw [code]; rfl
    rw [clockBytes_one held, reset]
    exact congrArg Host.Outcome.next ((State.unlessHeld_released held _).trans (if_pos awaits)).symm
  · exact clockBytes_eq_request held code (c := .openTx) nofun rfl rfl
  · exact clockBytes_eq_request held code (c := .closeTx) nofun rfl rfl
  · exact clockBytes_eq_request held code (c := .push) nofun (congrArg (· + 1) payload.length_toList) (serve_push ..)
  · exact clockBytes_eq_request held code (c := .subscribe) nofun rfl rfl
  · exact clockBytes_eq_request held code (c := .unsubscribe) nofun rfl rfl
  · exact clockBytes_eq_request held code (c := .pop) nofun rfl rfl
  · exact clockBytes_eq_request held code (c := .readEvent) nofun rfl rfl
  · exact clockBytes_eq_request held code (c := .readStation) nofun rfl rfl
  · exact clockBytes_eq_request held code (c := .readStream) nofun rfl rfl
  · exact clockBytes_eq_request held code (c := .readSub) nofun rfl rfl
  · exact clockBytes_eq_request held code (c := .readSlot) nofun rfl rfl
  · have bad : s.takeByte unnamed = s.taken unnamed State.unknownRequest := by rw [State.takeByte, code, unknown]
    rw [clockBytes_one held, bad]
    refine congrArg Host.Outcome.next (Eq.symm ((if_pos unknown).trans (State.request_taken held ?_)))
    rw [code]; rfl

end Sys2Proof.Proofs
end

section
/-! PROOF. The phases of a transaction, data out, and the commit of a consuming read: O25 and O26. -/

namespace Sys2Proof.Machine

open Sys2Proof.Safety

/-! ## Bytes after the taking (R162, R164) -/

section
variable {s : State} {k : Taken} {n : Nat} {b : Byte}

theorem State.takeByte_turnaround (phase : s.link = .turnaround k) : s.takeByte b = s.withLink (.status k) := by
  rw [State.takeByte, phase]; rfl

theorem State.takeByte_status_bare (phase : s.link = .status k) (bare : k.response = []) :
    s.takeByte b = s.withLink .done := by
  rw [State.takeByte, phase]; exact if_pos bare

theorem State.takeByte_status_read (phase : s.link = .status k) (read : k.response ≠ []) :
    s.takeByte b = s.withLink (.response k 0) := by
  rw [State.takeByte, phase]; exact if_neg read

theorem State.takeByte_response (phase : s.link = .response k n) (more : n + 1 < k.response.length) :
    s.takeByte b = s.withLink (.response k (n + 1)) := by
  rw [State.takeByte, phase]; exact if_pos more

theorem State.takeByte_lastResponse (phase : s.link = .response k n) (last : k.response.length ≤ n + 1) :
    s.takeByte b = s.finishTransaction k := by
  rw [State.takeByte, phase]; exact if_neg (Nat.not_lt.mpr last)

theorem State.takeByte_ignored (phase : s.link = .idle ∨ s.link = .done) : s.takeByte b = s := by
  rcases phase with phase | phase <;> rw [State.takeByte, phase]

theorem State.finishTransaction_bare (none : k.commit = none) : s.finishTransaction k = s.withLink .done := by
  rw [State.finishTransaction, none]; rfl

/-! ## The commit of a consuming read (R139, R157, R170) -/

theorem State.finishTransaction_event {r : EventRecord} {rest : List EventRecord}
    (target : k.commit = some .eventQueue) (queue : s.events = r :: rest) :
    s.finishTransaction k = { s with events := rest, link := .done } := by
  rw [State.finishTransaction, target, State.commit, State.dropEvent, queue, List.tail_cons]

theorem State.finishTransaction_block {e : EntryNo} {block : StoredBlock} {rest : List StoredBlock}
    (target : k.commit = some (.receiveQueue e)) (queue : s.subs[e].queue = block :: rest) :
    s.finishTransaction k = { s with
      freeList := s.freeList ++ [block.buffer], subs := s.subs.set e { s.subs[e] with queue := rest }
      link := .done } := by
  simp only [State.finishTransaction, target, State.commit, State.popHead, queue]
  rfl

/-- Outside RESPONSE, or with the reset input asserted, no commit is made. -/
theorem exec_consumingReadCommit_other (outside : s.resetHeld = true ∨ ∀ (k : Taken) (n : Nat), s.link ≠ .response k n) :
    exec .consumingReadCommit s = .next s := by
  refine congrArg Host.Outcome.next ?_
  rcases outside with held | other
  · exact State.unlessHeld_held held _
  · rcases s.unlessHeld_cases _ with ⟨-, held⟩ | ⟨-, works⟩
    · exact held
    · refine works.trans ?_
      split
      · rename_i k n phase
        exact absurd phase (other k n)
      all_goals rfl

/-- In RESPONSE the commit is made when one is pending and the byte in progress is the last one. -/
theorem exec_consumingReadCommit_response (held : s.resetHeld = false) (phase : s.link = .response k n) :
    exec .consumingReadCommit s =
      .next (if k.commit ≠ none ∧ n + 1 = k.response.length then s.finishTransaction k else s) := by
  refine congrArg Host.Outcome.next ((State.unlessHeld_released held _).trans ?_)
  rw [phase]

/-! ## Data out (R161, R162, R178) -/

theorem State.dataOut_deselected (high : s.selectLow = false) : s.dataOut = none := by
  rw [State.dataOut, high]; rfl

theorem State.dataOut_status (low : s.selectLow = true) (phase : s.link = .status k) :
    s.dataOut = some k.status.byte := by
  rw [State.dataOut, if_pos low, phase]

theorem State.dataOut_response (low : s.selectLow = true) (phase : s.link = .response k n)
    (within : n < k.response.length) : s.dataOut = k.response[n]? := by
  rw [State.dataOut, if_pos low, phase, List.getElem?_eq_getElem within]
  exact congrArg some (List.getD_eq_getElem _ _ within)

theorem State.dataOut_quiet (low : s.selectLow = true) (noStatus : ∀ k : Taken, s.link ≠ .status k)
    (noResponse : ∀ (k : Taken) (n : Nat), s.link ≠ .response k n) : s.dataOut = some 0x00 := by
  rw [State.dataOut, if_pos low]
  split
  · exact absurd ‹_› (noStatus _)
  · exact absurd ‹_› (noResponse _ _)
  all_goals rfl

end

/-! ## Bits of a byte (R162, R177) -/

theorem getMsbD_of_lt (b : Byte) {n : Nat} (h : n < 8) : b.getMsbD n = b.getLsbD (7 - n) := by
  simp [BitVec.getMsbD, h]

theorem getMsbD_byteOfBits (bits : Vector Bool 8) {n : Nat} (h : n < 8) : (byteOfBits bits).getMsbD n = bits[n] := by
  rw [byteOfBits, BitVec.getMsbD_ofBoolListBE]
  interval_cases n <;> rfl

theorem State.dataOutBit_eq {s : State} {b : Byte} {n : Nat} (out : s.dataOut = some b) (h : n < 8) :
    s.dataOutBit n = some (b.getLsbD (7 - n)) := by
  rw [State.dataOutBit, out, ← getMsbD_of_lt b h]
  exact getElem?_byteBits b h

end Sys2Proof.Machine

namespace Sys2Proof.Proofs

open Sys2Proof.Machine Sys2Proof.Safety

/-- Settles O25, by the phase and the level of select. -/
theorem transactionPhases : Obligations.TransactionPhases := by
  intro s
  refine ⟨fun b held => ?_, fun high => ⟨fun held idle => ?_, fun busy => ?_, ?_⟩,
    fun low => ⟨fun held => ?_, fun held => ?_, ?_⟩, State.dataOut_deselected,
    fun low => ⟨fun k => State.dataOut_status low, fun k n => State.dataOut_response low, State.dataOut_quiet low⟩,
    fun released n => ?_, fun b n => State.dataOutBit_eq, fun bits n h => ?_⟩
  · rw [exec_byteComplete held]
    refine ⟨fun k phase => ?_, fun k phase bare => ?_, fun k phase read => ?_, fun k n phase more => ?_,
      fun k n phase last none => ?_, fun phase => ?_⟩ <;> refine congrArg Host.Outcome.next ?_
    · exact State.takeByte_turnaround phase
    · exact State.takeByte_status_bare phase bare
    · exact State.takeByte_status_read phase read
    · exact State.takeByte_response phase more
    · exact (State.takeByte_lastResponse phase last).trans (State.finishTransaction_bare none)
    · exact State.takeByte_ignored phase
  · exact congrArg Host.Outcome.next ((if_neg (Bool.eq_false_iff.mp high)).trans (if_pos ⟨held, idle⟩))
  · have none : ¬ (s.resetHeld = false ∧ s.link = .idle) := fun ⟨held, idle⟩ =>
      busy.elim (fun asserted => nomatch held.symm.trans asserted) (absurd idle)
    exact congrArg Host.Outcome.next ((if_neg (Bool.eq_false_iff.mp high)).trans (if_neg none))
  · exact congrArg Host.Outcome.next (if_pos high)
  · exact congrArg Host.Outcome.next
      ((if_neg ((Bool.not_eq_false _).mpr low)).trans (if_neg (Bool.eq_false_iff.mp held)))
  · exact congrArg Host.Outcome.next ((if_neg ((Bool.not_eq_false _).mpr low)).trans (if_pos held))
  · exact congrArg Host.Outcome.next (if_pos low)
  · rw [State.dataOutBit, released]; rfl
  · rw [← getMsbD_of_lt _ h, getMsbD_byteOfBits bits h]

/-- Settles O26, by the phase, the byte in progress and the queue of the commit. -/
theorem lastResponseByteCommits : Obligations.LastResponseByteCommits := by
  refine ⟨fun s => exec_consumingReadCommit_other, fun s k n held phase => ?_⟩
  rw [exec_consumingReadCommit_response held phase]
  refine ⟨fun pending last => ?_, fun other => ?_⟩
  · rw [if_pos ⟨pending, last⟩]
    refine ⟨fun b => ?_, fun r rest target queue => ?_, fun e block rest target queue => ?_⟩
    · rw [exec_byteComplete held, State.takeByte_lastResponse phase last.ge]
    · rw [State.finishTransaction_event target queue]
    · rw [State.finishTransaction_block target queue]
  · rw [if_neg fun ⟨pending, last⟩ => other.elim pending (absurd last)]

end Sys2Proof.Proofs
end

section
/-! PROOF. The layouts of the snapshot responses and the codes of the value sets: O21. -/

namespace Sys2Proof.Machine

/-! ## Flags and lists of slots (R177) -/

/-- Two flags in one byte do not overlap, so that their bits add. -/
theorem flagBit_or_flagBit (low high : Bool) :
    flagBit 0 low ||| flagBit 1 high = (if low then 1 else 0) + (if high then 2 else 0) := by
  cases low <;> cases high <;> rfl

/-- A field of `n` bytes that a list fills from its front has `pad` wherever the list has ended. -/
theorem take_append_replicate_eq_map_range {α : Type} (l : List α) (pad : α) (n : Nat) :
    (l ++ List.replicate n pad).take n = (List.range n).map fun i => l[i]?.getD pad := by
  refine List.ext_getElem (by simp) fun i _ _ => ?_
  by_cases filled : i < l.length <;> simp [List.getElem_append, filled]

/-- The four bytes of the slots a stream holds (R122). -/
theorem heldBytes_eq (held : List SlotNo) :
    (held.map slotByte ++ List.replicate 4 absentByte).take 4 =
      (List.range 4).map fun n =>
        match held[n]? with
        | some k => slotByte k
        | none => absentByte := by
  rw [take_append_replicate_eq_map_range]
  refine List.map_congr_left fun n _ => ?_
  rw [List.getElem?_map]
  cases held[n]? <;> rfl

end Sys2Proof.Machine

namespace Sys2Proof.Proofs

open Sys2Proof.Machine

/-- Settles O21, layout by layout: what may be absent is split into its two cases, and every constructor of a map entry
and of an event has a row of its own. -/
theorem snapshotLayouts : Obligations.SnapshotLayouts := by
  refine ⟨fun s => ?station, fun i inTransit r => ?stream, fun e r => ?sub, fun k cleanCount entry => ?slot,
    rfl, rfl, rfl, rfl, rfl, rfl, fun v => ?event⟩
  case station =>
    rw [State.stationBytes]
    cases s.timeline <;> rfl
  case stream =>
    rw [Stream.bytes, heldBytes_eq, flagBit_or_flagBit]
    cases r.failure <;> rfl
  case sub =>
    rw [Subscription.bytes, flagBit_or_flagBit]
    cases r.expected <;> rfl
  case slot =>
    match entry with
    | .unknown _ | .free | .held none _ | .held (some _) _ | .cooling _ | .probe _ _ | .mine _ _ _ => rfl
  case event => cases v <;> rfl

end Sys2Proof.Proofs
end

section
/-! PROOF. The law of the block pool by itself: what it says, and what keeps it while no block is in transit. -/

namespace Sys2Proof.Machine

open Sys2Proof.Safety

/-! ## What the law of the pool says (R106, R143, R144) -/

/-- A stream that is IDLE or CLOSING queues nothing (R116). -/
def Stream.Cleared (r : Stream) : Prop := r.state = .idle ∨ r.state = .closing → r.queue = []

/-- The part of the law that is about streams, lanes and the slot map. -/
structure PoolWork (s : State) : Prop where
  cleared : ∀ i : StreamNo, s.streams[i].Cleared
  lanesProbe : ∀ l : LaneNo, ∀ r ∈ s.lanes[l], s.map[r.slot] = .probe l r.stream
  mine : ∀ b ∈ s.inTransit, s.map[b.slot].isMineOf b.stream = true
  returns : ∀ b ∈ s.inTransit, b.disposal = .returnToQueue →
    s.streams[b.stream].state ≠ .idle ∧ s.streams[b.stream].state ≠ .closing

/-- The part of the law that ties the block in transit to the line: it is the DATA under way (R106). -/
structure PoolLine (s : State) : Prop where
  onBus : ∀ b ∈ s.inTransit, s.station = .active ∨ s.station = .leaving
  due : ∀ b ∈ s.inTransit, s.boundary = some (.slotEnd b.slot)
  sent : ∀ b ∈ s.inTransit, sendsMark s .data = true

/-- The law of the pool, but for how often each buffer stands in it. -/
structure PoolFits (s : State) : Prop where
  work : PoolWork s
  line : PoolLine s

/-- The law while no block is in transit. -/
structure PoolRests (s : State) : Prop where
  work : PoolWork s
  quiet : s.inTransit = none

theorem PoolFits.of_legal {s : State} (h : PoolLegal s) : PoolFits s :=
  ⟨⟨h.emptyWhenClosed, h.lanesProbe, h.transitMine, h.transitReturns⟩, h.transitOnTimeline, h.transitDue, h.transitSent⟩

/-- Each of the 192 buffers being in one place, the buffers in all places come to 192 (R144). -/
theorem places_sum_of_once {s : State} (once : ∀ b : BufferNo, s.buffers.count b = 1) :
    s.freeBuffers + s.txQueued + (if s.inTransit.isSome then 1 else 0) + s.rxQueued = Config.poolBuffers := by
  have tx : s.txBuffers.length = s.txQueued := by
    simp [State.txBuffers, State.txQueued, Stream.buffers, List.length_flatMap]
  have rx : s.rxBuffers.length = s.rxQueued := by
    simp [State.rxBuffers, State.rxQueued, Subscription.buffers, List.length_flatMap]
  have transit : (s.inTransit.toList.map (·.block.buffer)).length = if s.inTransit.isSome then 1 else 0 := by
    cases s.inTransit <;> rfl
  rw [← length_of_once once, State.buffers, List.length_append, List.length_append, List.length_append, tx, rx, transit,
    State.freeBuffers]

theorem PoolFits.legal {s : State} (h : PoolFits s) (once : ∀ b : BufferNo, s.buffers.count b = 1) : PoolLegal s where
  once := once
  law := places_sum_of_once once
  emptyWhenClosed := h.work.cleared
  lanesProbe := h.work.lanesProbe
  transitOnTimeline := h.line.onBus
  transitMine := h.work.mine
  transitDue := h.line.due
  transitSent := h.line.sent
  transitReturns := h.work.returns

theorem PoolRests.fits {s : State} (h : PoolRests s) : PoolFits s where
  work := h.work
  line := ⟨fun _ hb => (nomatch h.quiet.symm.trans hb), fun _ hb => (nomatch h.quiet.symm.trans hb),
    fun _ hb => (nomatch h.quiet.symm.trans hb)⟩

/-- A block is in transit only until its slot ends (R106). -/
theorem PoolFits.rests_between {s : State} (h : PoolFits s) (between : ∀ k : SlotNo, s.boundary ≠ some (.slotEnd k)) :
    PoolRests s :=
  ⟨h.work, Option.eq_none_iff_forall_not_mem.mpr fun b hb => between b.slot (h.line.due b hb)⟩

/-- A block is in transit only in ACTIVE and LEAVING. -/
theorem PoolFits.rests_off {s : State} (h : PoolFits s) (active : s.station ≠ .active)
    (leaving : s.station ≠ .leaving) : PoolRests s :=
  ⟨h.work, Option.eq_none_iff_forall_not_mem.mpr fun b hb => (h.line.onBus b hb).elim active leaving⟩

/-! ## Changes that keep the law -/

section Changes

variable {s t : State}

/-- The station state, the counts, the line and the claim queue are no part of it. -/
theorem PoolWork.view {st : StationState} {n : Nat} {b : Option Boundary} {f : Option Frame} {q : List StreamNo}
    (h : PoolWork s)
    (hv : t.engineView = { s.engineView with station := st, settle := n, boundary := b, frame := f, claimQueue := q }) :
    PoolWork t := by
  obtain ⟨-, -, -, -, map, -, lanes, streams, inTransit⟩ := EngineView.mk.inj hv
  constructor
  · rw [streams]; exact h.cleared
  · rw [map, lanes]; exact h.lanesProbe
  · rw [map, inTransit]; exact h.mine
  · rw [streams, inTransit]; exact h.returns

theorem PoolRests.view {st : StationState} {n : Nat} {b : Option Boundary} {f : Option Frame} {q : List StreamNo}
    (h : PoolRests s)
    (hv : t.engineView = { s.engineView with station := st, settle := n, boundary := b, frame := f, claimQueue := q }) :
    PoolRests t := ⟨h.work.view hv, (congrArg EngineView.inTransit hv).trans h.quiet⟩

theorem PoolFits.view (h : PoolFits s) (hv : t.engineView = s.engineView) : PoolFits t := by
  obtain ⟨station, -, boundary, frame, -, -, -, -, inTransit⟩ := EngineView.mk.inj hv
  refine ⟨h.work.view hv, ?_, ?_, ?_⟩
  · rw [inTransit, station]; exact h.line.onBus
  · rw [inTransit, boundary]; exact h.line.due
  · rw [inTransit, sendsMark_eq frame]; exact h.line.sent

/-- A change of one record. -/
theorem PoolWork.modStream (h : PoolWork s) (i : StreamNo) {f : Stream → Stream} (cleared : (f s.streams[i]).Cleared)
    (returns : ∀ b ∈ s.inTransit, b.stream = i → b.disposal = .returnToQueue →
      (f s.streams[i]).state ≠ .idle ∧ (f s.streams[i]).state ≠ .closing) : PoolWork (s.modStream i f) where
  cleared j := by
    rw [State.modStream_get]
    split
    · exact cleared
    · exact h.cleared j
  lanesProbe := h.lanesProbe
  mine := h.mine
  returns b hb hd := by
    rw [State.modStream_get]
    split
    · exact returns b hb (Eq.symm ‹_›) hd
    · exact h.returns b hb hd

theorem PoolRests.modStream (h : PoolRests s) (i : StreamNo) {f : Stream → Stream}
    (cleared : s.streams[i].Cleared → (f s.streams[i]).Cleared) : PoolRests (s.modStream i f) :=
  ⟨h.work.modStream i (cleared (h.work.cleared i)) fun _ hb => (nomatch h.quiet.symm.trans hb), h.quiet⟩

/-- A change of every record. -/
theorem PoolRests.mapStreams (h : PoolRests s) {f : StreamNo → Stream → Stream}
    (cleared : ∀ i : StreamNo, s.streams[i].Cleared → (f i s.streams[i]).Cleared) : PoolRests (s.mapStreams f) where
  work :=
    { cleared := fun i => by rw [State.mapStreams_get]; exact cleared i (h.work.cleared i)
      lanesProbe := h.work.lanesProbe
      mine := h.work.mine
      returns := fun _ hb => nomatch h.quiet.symm.trans hb }
  quiet := h.quiet

/-- A change of the lanes and of the entries. -/
theorem PoolRests.relane (h : PoolRests s) (streams : t.streams = s.streams) (inTransit : t.inTransit = s.inTransit)
    (lanesProbe : ∀ l : LaneNo, ∀ r ∈ t.lanes[l], t.map[r.slot] = .probe l r.stream) : PoolRests t where
  work :=
    { cleared := streams ▸ h.work.cleared
      lanesProbe := lanesProbe
      mine := fun _ hb => nomatch (inTransit.trans h.quiet).symm.trans hb
      returns := fun _ hb => nomatch (inTransit.trans h.quiet).symm.trans hb }
  quiet := inTransit.trans h.quiet

/-- Both lanes fall idle. -/
theorem PoolRests.unlaned (h : PoolRests s) (streams : t.streams = s.streams) (inTransit : t.inTransit = s.inTransit)
    (lanes : t.lanes = Vector.replicate 2 none) : PoolRests t :=
  h.relane streams inTransit fun l r hr => by
    rw [lanes, no_lane] at hr
    cases hr

/-- A change that leaves every claim as it is moves no PROBE entry (R73). -/
theorem PoolRests.stand (h : PoolRests s) (k : ClaimsStand s t) (streams : t.streams = s.streams)
    (inTransit : t.inTransit = s.inTransit) : PoolRests t :=
  h.relane streams inTransit fun l r hr => by
    have probe := h.work.lanesProbe l r (k.lanes ▸ hr)
    rcases k.entries r.slot with same | none
    · exact same.trans probe
    · exact absurd probe (none l r.stream).1

/-- A lane that gives up its slot. The block in transit is in another, since this one is PROBE (R106). -/
theorem PoolWork.endProbe (h : PoolWork s) {l : LaneNo} {r : Lane} (hr : s.lanes[l] = some r) (e : MapEntry) :
    PoolWork ((s.setLane l none).setEntry r.slot e) := by
  have probe := h.lanesProbe l r hr
  refine ⟨h.cleared, fun m q hq => ?_, fun b hb => ?_, h.returns⟩
  · rw [State.setEntry_lanes, State.setLane_get] at hq
    split at hq
    · cases hq
    · rename_i hlm
      have other := h.lanesProbe m q hq
      have apart : r.slot ≠ q.slot := fun hs =>
        hlm (MapEntry.probe.inj (probe.symm.trans ((entry_congr s.map hs).trans other))).1
      rw [State.setEntry_get, if_neg apart]
      exact other
  · have mine := h.mine b hb
    have apart : r.slot ≠ b.slot := fun hs => by
      rw [← entry_congr s.map hs, probe] at mine
      cases mine
    rw [State.setEntry_get, if_neg apart]
    exact mine

theorem PoolRests.endProbe (h : PoolRests s) {l : LaneNo} {r : Lane} (hr : s.lanes[l] = some r) (e : MapEntry) :
    PoolRests ((s.setLane l none).setEntry r.slot e) := ⟨h.work.endProbe hr e, h.quiet⟩

theorem PoolRests.foldl {α : Type} {f : State → α → State} (step : ∀ s a, PoolRests s → PoolRests (f s a)) (as : List α)
    (h : PoolRests s) : PoolRests (as.foldl f s) := by
  induction as generalizing s with
  | nil => exact h
  | cons a as ih => exact ih (step s a h)

end Changes

end Sys2Proof.Machine
end

section
/-! PROOF. The operations of the claim engine, the stream unit and the timeline unit while no block is in transit, and
those that settle the block in transit. -/

namespace Sys2Proof.Machine

open Sys2Proof.Safety

/-! ## The slot map and the receive unit -/

theorem State.postAll_rests {s : State} (h : PoolRests s) (es : List Event) : PoolRests (s.postAll es) := by
  rw [State.postAll_eq]; exact h.view rfl

theorem State.mergeSummary_rests {s : State} (h : PoolRests s) (summary : SlotFlags) :
    PoolRests (s.mergeSummary summary) :=
  h.stand (s.mergeSummary_stand summary) (s.mapEntries_streams _) (s.mapEntries_inTransit _)

theorem State.fillMap_rests {s : State} (h : PoolRests s) : PoolRests s.fillMap :=
  h.stand s.fillMap_stand (s.mapEntries_streams _) (s.mapEntries_inTransit _)

theorem State.observeSlot_rests {s : State} (h : PoolRests s) (k : SlotNo) (c : ObsClass SlotFrame) :
    PoolRests (s.observeSlot k c) :=
  h.stand (s.observeSlot_stand k c) (congrArg EngineView.streams (s.observeSlot_view k c))
    (congrArg EngineView.inTransit (s.observeSlot_view k c))

/-- A MINE entry moves, and no PROBE entry with it. -/
theorem State.setMine_rests {s : State} (h : PoolRests s) {k : SlotNo} {i : StreamNo} {c : Nat} {f : Bool}
    (hk : s.map[k] = .mine i c f) {e : MapEntry} (he : ∀ (l : LaneNo) (j : StreamNo), e ≠ .probe l j) :
    PoolRests (s.setEntry k e) := h.stand (.setMine hk he) rfl rfl

theorem State.countQuiet_view (s : State) (e : EntryNo) : (s.countQuiet e).engineView = s.engineView := by
  unfold State.countQuiet
  split
  · split <;> rfl
  · rfl

theorem State.receiveCycleEnd_rests {s : State} (h : PoolRests s) : PoolRests s.receiveCycleEnd := by
  unfold State.receiveCycleEnd
  split
  · exact h.foldl (fun u e hu => hu.view (u.countQuiet_view e)) allEntries
  · exact h

/-! ## The slot-phase start (R85 to R90) -/

/-- A grant takes a FREE slot, so one that no busy lane has (R88). -/
theorem State.grant_rests {s : State} (h : PoolRests s) {l : LaneNo} {k : SlotNo} (hk : s.map[k] = .free)
    (i : StreamNo) : PoolRests (s.grant l i k) := by
  refine PoolRests.modStream ?_ i id
  refine h.relane rfl rfl fun m r hr => ?_
  rw [State.setEntry_lanes, State.setLane_get] at hr
  rw [State.setEntry_get]
  split at hr
  · rename_i hlm
    cases hr
    rw [if_pos rfl, hlm]
  · have probe := h.work.lanesProbe m r hr
    have apart : k ≠ r.slot := fun hs => nomatch hk.symm.trans ((entry_congr s.map hs).trans probe)
    rw [if_neg apart]
    exact probe

theorem State.serveLane_rests {s : State} (h : PoolRests s) (l : LaneNo) : PoolRests (s.serveLane l) := by
  unfold State.serveLane
  split
  · split
    · rename_i k hk
      exact State.grant_rests (s := s.drawUsed) (h.view rfl) (State.mem_freeSlots.mp (List.mem_of_getElem? hk)) _
    · exact h
  all_goals exact h

theorem State.failStream_rests {s : State} (h : PoolRests s) (i : StreamNo) (why : Reason) :
    PoolRests (s.failStream i why) := by
  refine PoolRests.view (s := s.modStream i fun r => { r.clearClaim with state := .failed, failure := some why }) ?_ rfl
  exact h.modStream i fun _ closed => closed.elim nofun nofun

theorem State.shortStream_rests {s : State} (h : PoolRests s) (i : StreamNo) (why : Reason) :
    PoolRests (s.shortStream i why) := by
  unfold State.shortStream
  split
  · exact h
  · exact (h.modStream i id).view rfl

theorem State.limitDeferral_rests {s : State} (h : PoolRests s) (i : StreamNo) : PoolRests (s.limitDeferral i) := by
  unfold State.limitDeferral
  split
  · exact h
  · split
    · have dismissed : PoolRests { s with claimQueue := s.claimQueue.filter (· ≠ i) } := h.view rfl
      exact State.failStream_rests dismissed i _
    · exact State.shortStream_rests (h.modStream i id) i _

theorem State.serveClaims_rests {s : State} (h : PoolRests s) : PoolRests s.serveClaims := by
  have counted : PoolRests s.countBackoffs := h.mapStreams fun i hi => by split <;> exact hi
  have joined : PoolRests s.countBackoffs.joinQueue := counted.view rfl
  unfold State.serveClaims State.serveLanes State.limitDeferrals
  refine PoolRests.foldl (fun u i hu => State.limitDeferral_rests hu i) _ ?_
  split
  · exact joined.mapStreams fun i hi => by split <;> exact hi
  · exact State.serveLane_rests (State.serveLane_rests joined 0) 1

/-! ## The outcome of a CLAIM (R92 to R95) -/

theorem State.goLive_rests {s : State} (h : PoolRests s) (i : StreamNo) (k : SlotNo) : PoolRests (s.goLive i k) := by
  unfold State.goLive
  split
  · refine PoolRests.view (s := s.modStream i fun q => { q with state := .live, shortPosted := false }) ?_ rfl
    exact h.modStream i fun _ closed => closed.elim nofun nofun
  · exact h

theorem State.limitAttempts_rests {s : State} (h : PoolRests s) (i : StreamNo) : PoolRests (s.limitAttempts i) := by
  unfold State.limitAttempts
  split
  · exact h
  · split
    · exact State.failStream_rests h i _
    · exact State.shortStream_rests (h.modStream i id) i _

/-- A lane that counts a clean CLAIM keeps its slot (R92). -/
theorem State.countLane_rests {s : State} (h : PoolRests s) {l : LaneNo} {r : Lane} (hr : s.lanes[l] = some r)
    (n : Nat) : PoolRests (s.setLane l (some { r with cleanCount := n })) :=
  h.relane rfl rfl fun m q hq => by
    rw [State.setLane_get] at hq
    split at hq
    · rename_i hlm
      cases hq
      exact hlm ▸ h.work.lanesProbe l r hr
    · exact h.work.lanesProbe m q hq

theorem State.claimOutcome_rests {s : State} (h : PoolRests s) (k : SlotNo) (o : Outcome) :
    PoolRests (s.claimOutcome k o) := by
  cases hl : s.laneOfSlot k with
  | none => rw [State.claimOutcome_discarded hl]; exact h
  | some p =>
    obtain ⟨l, r⟩ := p
    have hr := State.laneOfSlot_some hl
    simp only [State.claimOutcome, hl]
    split
    · split
      · exact State.countLane_rests h hr _
      · exact State.goLive_rests ((h.endProbe hr (.mine r.stream 0 false)).modStream r.stream id) _ _
    · have lost : PoolRests (s.loseProbe l r) :=
        ((h.endProbe hr (.held none 0)).modStream r.stream id).view (t := s.loseProbe l r) rfl
      exact State.limitAttempts_rests lost r.stream

/-! ## The slots of a stream (R112 to R115, R118) -/

theorem State.finishClosing_rests {s : State} (h : PoolRests s) (i : StreamNo) : PoolRests (s.finishClosing i) := by
  unfold State.finishClosing
  split
  · rename_i ends
    refine PoolRests.view (s := s.modStream i fun r => { r with state := .idle }) ?_ rfl
    exact h.modStream i fun cleared _ => cleared (.inr ends.1)
  · exact h

theorem StreamState.of_afterRelease_closed {x : StreamState} (h : x.afterRelease = .idle ∨ x.afterRelease = .closing) :
    x = .idle ∨ x = .closing := by cases x <;> simp_all [StreamState.afterRelease]

theorem State.releaseSlot_rests {s : State} (h : PoolRests s) {k : SlotNo} {i : StreamNo} {c : Nat} {f : Bool}
    (hk : s.map[k] = .mine i c f) : PoolRests (s.releaseSlot k i) := by
  have released := (State.setMine_rests h hk (e := .held none 0) fun _ _ => nofun).modStream i
    (f := fun r => { r with held := r.held.erase k, slotsLost := bump r.slotsLost, state := r.state.afterRelease })
    fun cleared closed => cleared (StreamState.of_afterRelease_closed closed)
  exact State.finishClosing_rests (released.view (t := State.post _ (.streamLost i k)) rfl) i

theorem State.raiseConflict_rests {s : State} (h : PoolRests s) (k : SlotNo) : PoolRests (s.raiseConflict k) := by
  unfold State.raiseConflict
  split
  · split
    · exact State.setMine_rests h ‹_› fun _ _ => nofun
    · exact State.releaseSlot_rests h ‹_›
  all_goals exact h

theorem State.clearConflict_rests {s : State} (h : PoolRests s) (k : SlotNo) : PoolRests (s.clearConflict k) := by
  unfold State.clearConflict
  split
  · exact State.setMine_rests h ‹_› fun _ _ => nofun
  all_goals exact h

theorem State.finalSent_rests {s : State} (h : PoolRests s) (k : SlotNo) : PoolRests (s.finalSent k) := by
  unfold State.finalSent
  split
  · have cooling := State.setMine_rests h ‹_› (e := .cooling Config.cool) fun _ _ => nofun
    exact State.finishClosing_rests (cooling.modStream _ id) _
  all_goals exact h

/-! ## The block in transit (R106, R112, R113) -/

theorem PoolWork.without_transit {s : State} (h : PoolWork s) (free : List BufferNo) :
    PoolRests { s with inTransit := none, freeList := free } where
  work := ⟨h.cleared, h.lanesProbe, fun b hb => absurd hb (Option.not_mem_none b),
    fun b hb => absurd hb (Option.not_mem_none b)⟩
  quiet := rfl

/-- A block that rejoins its queue does so in a stream that may queue one (R113). -/
theorem State.settleTransit_rests {s : State} (h : PoolWork s) : PoolRests s.settleTransit := by
  cases hb : s.inTransit with
  | none => rw [State.settleTransit_none hb]; exact ⟨h, hb⟩
  | some b =>
    cases hd : b.disposal with
    | freeBuffer => rw [State.settleTransit_frees hb hd]; exact h.without_transit _
    | returnToQueue =>
      rw [State.settleTransit_returns hb hd]
      obtain ⟨idle, closing⟩ := h.returns b hb hd
      exact (h.without_transit s.freeList).modStream b.stream
        (f := fun r => { r with queue := b.block :: s.streams[b.stream].queue })
        fun _ closed => (closed.elim idle closing).elim

theorem State.deliverTransit_rests {s : State} (h : PoolWork s) : PoolRests s.deliverTransit := by
  cases hb : s.inTransit with
  | none =>
    have same : s.deliverTransit = s := by simp only [State.deliverTransit, hb]
    rw [same]
    exact ⟨h, hb⟩
  | some b =>
    rw [State.deliverTransit_eq hb]
    exact (h.without_transit _).modStream b.stream
      (f := fun r => { r with sequence := r.sequence + 1, blocksSent := bump r.blocksSent }) id

/-- After the outcome of an own frame no block is in transit, since only DATA had one. -/
theorem State.takeOutcome_rests {s : State} {f : Frame} (h : PoolWork s)
    (dataless : (∀ g : SlotFrame, f = .slot g → g.mark ≠ .data) → s.inTransit = none) (k : SlotNo) (o : Outcome) :
    PoolRests (s.takeOutcome k f o) := by
  cases f with
  | beacon b => exact ⟨h, dataless nofun⟩
  | slot g =>
    have rests (hm : g.mark ≠ .data) : PoolRests s := ⟨h, dataless fun _ hg => by cases hg; exact hm⟩
    rw [State.takeOutcome_slot]
    cases hm : g.mark with
    | claim => exact State.claimOutcome_rests (rests (by rw [hm]; exact nofun)) k o
    | final => exact State.finalSent_rests (rests (by rw [hm]; exact nofun)) k
    | fill =>
      have rests := rests (by rw [hm]; exact nofun)
      cases o with
      | clean => exact State.clearConflict_rests rests k
      | collided => exact State.raiseConflict_rests rests k
    | data =>
      cases o with
      | clean => exact State.clearConflict_rests (State.deliverTransit_rests h) k
      | collided => exact State.raiseConflict_rests (State.settleTransit_rests h) k

/-! ## Stations that leave their timeline (R31 to R39) -/

theorem State.arriveReady_rests {s : State} (h : PoolRests s) (cause : Cause) : PoolRests (s.arriveReady cause) := by
  rw [State.arriveReady_eq]
  exact h.unlaned rfl rfl rfl

theorem Stream.Cleared.drop {r : Stream} (h : r.Cleared) : r.drop.Cleared := by
  intro closed
  rw [Stream.drop_queue]
  unfold Stream.drop at closed
  split at closed
  · exact closed.elim nofun nofun
  · exact closed.elim nofun nofun
  · exact h (.inr ‹_›)
  · exact h closed
  · exact h closed

theorem State.timelineDrop_rests {s : State} (h : PoolWork s) : PoolRests s.timelineDrop := by
  have dropped := (State.settleTransit_rests h).mapStreams (f := fun _ r => r.drop) fun _ cleared => cleared.drop
  unfold State.timelineDrop
  generalize s.settleTransit = u at dropped ⊢
  refine dropped.unlaned ?_ ?_ ?_ <;> simp [State.clearMap, State.mapStreams]

theorem State.abandonFrame_view (s : State) : s.abandonFrame.engineView = s.engineView := by
  unfold State.abandonFrame; split <;> rfl

theorem State.loseSync_rests {s : State} (h : PoolWork s) : PoolRests s.loseSync := by
  have listens {u : State} (hu : PoolRests u) : PoolRests (u.leaveTimeline.startTimer.enter .listen .holdover) :=
    hu.view rfl
  exact State.postAll_rests (listens (State.timelineDrop_rests (h.view s.abandonFrame_view))) _

theorem State.loseSyncLeaving_rests {s : State} (h : PoolWork s) : PoolRests s.loseSyncLeaving :=
  State.postAll_rests (State.arriveReady_rests (State.timelineDrop_rests h) _) _

theorem State.mergeOnto_rests {s : State} (h : PoolWork s) (b : BeaconFrame) (firstBit : Time) :
    PoolRests (s.mergeOnto b firstBit) := by
  have joined {u : State} (hu : PoolRests u) : PoolRests ((u.joinTimeline b firstBit).enter .settle .merge) :=
    hu.view rfl
  have counted {u : State} (hu : PoolRests u) : PoolRests u.countCleanBeacon := hu.view rfl
  have posted := State.postAll_rests (joined (State.timelineDrop_rests h)) (s.closingStreams.map .streamClosed)
  exact (State.mergeSummary_rests (counted posted) b.occupancy).view (State.checkAddress_view _ _)

theorem State.mergeLeaving_rests {s : State} (h : PoolWork s) (b : BeaconFrame) : PoolRests (s.mergeLeaving b) := by
  have arrived := State.postAll_rests (State.arriveReady_rests (State.timelineDrop_rests h) .merge)
    (s.closingStreams.map .streamClosed)
  unfold State.mergeLeaving
  dsimp only
  split
  · exact arrived.view rfl
  · exact arrived

/-- A station that arrives in READY has no block in transit, since that would be in a MINE slot (R37, R106). -/
theorem State.checkLeft_fits {s : State} (h : PoolFits s) : PoolFits s.checkLeft := by
  unfold State.checkLeft
  split
  · rename_i left
    have quiet : s.inTransit = none := Option.eq_none_iff_forall_not_mem.mpr fun b hb => by
      obtain ⟨c, f, hk⟩ := (MapEntry.isMineOf_iff _ _).mp (h.work.mine b hb)
      have none := List.any_eq_false.mp left.2 b.slot (List.mem_finRange _)
      rw [hk] at none
      exact none rfl
    exact (State.arriveReady_rests ⟨h.work, quiet⟩ .left).fits
  · exact h

/-! ## The cycle end (R29 to R32) -/

theorem State.countSettle_rests {s : State} (h : PoolRests s) : PoolRests s.countSettle := by
  unfold State.countSettle
  split
  · split <;> exact h.view rfl
  · exact h

theorem State.countHoldover_rests {s : State} (h : PoolRests s) : PoolRests s.countHoldover := by
  unfold State.countHoldover
  split
  · exact State.countSettle_rests h
  · split
    · exact State.countSettle_rests (h.view rfl)
    · split
      · exact State.loseSyncLeaving_rests h.work
      · exact State.loseSync_rests h.work

theorem State.endCycle_rests {s : State} (h : PoolRests s) : PoolRests s.endCycle := by
  rcases s.endCycle_cases with he | he <;> rw [he]
  · exact State.countHoldover_rests (State.receiveCycleEnd_rests h)
  · exact State.receiveCycleEnd_rests (State.countHoldover_rests h)

end Sys2Proof.Machine
end

section
/-! PROOF. The requests and the law of the pool, with a block in transit or without: streams that open, close and take
blocks. -/

namespace Sys2Proof.Machine

open Sys2Proof.Safety

/-! ## Changes that the line does not see -/

/-- From `s` to `t` the line and the station stay as they are, a block in transit stays in transit in its slot, and the
streams keep their part of the law. -/
structure OffLine (s t : State) : Prop where
  work : PoolWork s → PoolWork t
  slot : t.inTransit.map (·.slot) = s.inTransit.map (·.slot)
  station : t.stationView = s.stationView

namespace OffLine

variable {s t u : State}

theorem refl (s : State) : OffLine s s := ⟨id, rfl, rfl⟩

theorem trans (h : OffLine s t) (k : OffLine t u) : OffLine s u :=
  ⟨k.work ∘ h.work, k.slot.trans h.slot, k.station.trans h.station⟩

theorem foldl {α : Type} {f : State → α → State} (h : ∀ s a, OffLine s (f s a)) (as : List α) (s : State) :
    OffLine s (as.foldl f s) := by
  induction as generalizing s with
  | nil => exact .refl s
  | cons a as ih => exact (h s a).trans (ih _)

theorem fits (k : OffLine s t) (h : PoolFits s) : PoolFits t := by
  have carried (b : InTransit) (hb : b ∈ t.inTransit) : ∃ d ∈ s.inTransit, d.slot = b.slot := by
    have hs := k.slot
    rw [Option.mem_def.mp hb, Option.map_some, eq_comm, Option.map_eq_some_iff] at hs
    exact hs
  have frame : t.tx.map (·.frame) = s.tx.map (·.frame) := by
    rw [show t.tx = s.tx from congrArg StationView.tx k.station]
  refine ⟨k.work h.work, fun b hb => ?_, fun b hb => ?_, fun b hb => ?_⟩ <;> obtain ⟨d, hd, slot⟩ := carried b hb
  · rw [show t.station = s.station from congrArg StationView.station k.station]
    exact h.line.onBus d hd
  · rw [State.boundary_of_stationView k.station, ← slot]
    exact h.line.due d hd
  · rw [sendsMark_eq frame]
    exact h.line.sent d hd

theorem rests (k : OffLine s t) (h : PoolRests s) : PoolRests t := by
  refine ⟨k.work h.work, Option.map_eq_none_iff.mp (k.slot.trans ?_)⟩
  rw [h.quiet, Option.map_none]

end OffLine

/-! ## Streams that close (R98, R116, R117) -/

/-- Stream `i` queues nothing, and its block in transit, if any, is not to go back to its queue. -/
structure State.Drained (s : State) (i : StreamNo) : Prop where
  empty : s.streams[i].queue = []
  condemned : ∀ b ∈ s.inTransit, b.stream = i → b.disposal ≠ .returnToQueue

theorem State.Drained.congr {s t : State} {i : StreamNo} (h : s.Drained i)
    (queue : t.streams[i].queue = s.streams[i].queue) (inTransit : t.inTransit = s.inTransit) : t.Drained i :=
  ⟨queue.trans h.empty, inTransit ▸ h.condemned⟩

/-- A change of one record that leaves its state. -/
theorem OffLine.modStream (s : State) (i : StreamNo) {f : Stream → Stream}
    (state : (f s.streams[i]).state = s.streams[i].state)
    (cleared : s.streams[i].Cleared → (f s.streams[i]).Cleared) : OffLine s (s.modStream i f) := by
  refine ⟨fun h => h.modStream i (cleared (h.cleared i)) ?_, rfl, rfl⟩
  rintro b hb rfl hd
  rw [state]
  exact h.returns b hb hd

/-- A drained stream may come to any state. -/
theorem OffLine.setState {s : State} {i : StreamNo} (drained : s.Drained i) {f : Stream → Stream}
    (queue : (f s.streams[i]).queue = s.streams[i].queue) : OffLine s (s.modStream i f) where
  work h := h.modStream i (fun _ => queue.trans drained.empty) fun b hb hi hd => absurd hd (drained.condemned b hb hi)
  slot := rfl
  station := rfl

theorem State.Drained.setState {s : State} {i : StreamNo} (drained : s.Drained i) {f : Stream → Stream}
    (queue : (f s.streams[i]).queue = s.streams[i].queue) : (s.modStream i f).Drained i :=
  drained.congr (by rw [State.modStream_get, if_pos rfl, queue]) rfl

theorem State.freeQueue_offLine (s : State) (i : StreamNo) : OffLine s (s.freeQueue i) := by
  have released : OffLine s (s.release s.streams[i].buffers) := ⟨fun h => h.view rfl, rfl, rfl⟩
  exact released.trans (.modStream _ i rfl fun _ _ => rfl)

theorem State.condemnTransit_offLine (s : State) (i : StreamNo) : OffLine s (s.condemnTransit i) := by
  unfold State.condemnTransit
  split
  · rename_i b hb
    split
    · refine ⟨fun h => ⟨h.cleared, h.lanesProbe, fun d hd => ?_, fun d hd => ?_⟩, by rw [hb]; rfl, rfl⟩ <;> cases hd
      · exact h.mine b hb
      · exact nofun
    · exact .refl s
  · exact .refl s

/-- The first two steps of a close drain the stream (R116). -/
theorem State.drained (s : State) (i : StreamNo) : ((s.freeQueue i).condemnTransit i).Drained i := by
  have empty : (s.freeQueue i).streams[i].queue = [] := by rw [State.freeQueue, State.modStream_get, if_pos rfl]
  generalize s.freeQueue i = u at empty
  unfold State.condemnTransit
  split
  · rename_i b hb
    split
    · exact ⟨empty, fun d hd _ => by cases hd; exact nofun⟩
    · exact ⟨empty, fun d hd hi => absurd (Option.some.inj (hb.symm.trans hd) ▸ hi) ‹_›⟩
  · rename_i hn
    exact ⟨empty, fun d hd => nomatch hn.symm.trans hd⟩

theorem State.abandonLaneOf_offLine (s : State) (i : StreamNo) (l : LaneNo) : OffLine s (s.abandonLaneOf i l) := by
  unfold State.abandonLaneOf State.abandonLane
  split
  · split
    · exact ⟨fun h => h.endProbe ‹_› _, rfl, rfl⟩
    · exact .refl s
  · exact .refl s

theorem State.abandonLaneOf_streams (s : State) (i : StreamNo) (l : LaneNo) :
    (s.abandonLaneOf i l).streams = s.streams ∧ (s.abandonLaneOf i l).inTransit = s.inTransit := by
  unfold State.abandonLaneOf State.abandonLane
  split
  · split <;> exact ⟨rfl, rfl⟩
  · exact ⟨rfl, rfl⟩

theorem State.leaveClaims_offLine (s : State) (i : StreamNo) : OffLine s (s.leaveClaims i) := by
  have dequeued (u : State) : OffLine u { u with claimQueue := u.claimQueue.filter (· ≠ i) } :=
    ⟨fun h => h.view rfl, rfl, rfl⟩
  exact (((s.abandonLaneOf_offLine i 0).trans (State.abandonLaneOf_offLine _ i 1)).trans (dequeued _)).trans
    (.modStream _ i rfl id)

/-- The claim engine's part of a close leaves the queue of the stream. -/
theorem State.Drained.leaveClaims {s : State} {i : StreamNo} (h : s.Drained i) : (s.leaveClaims i).Drained i := by
  obtain ⟨streams0, transit0⟩ := s.abandonLaneOf_streams i 0
  obtain ⟨streams1, transit1⟩ := (s.abandonLaneOf i 0).abandonLaneOf_streams i 1
  refine State.Drained.setState (f := Stream.clearClaim) (h.congr ?_ ?_) rfl
  · exact congrArg (fun v : Vector Stream 8 => v[i].queue) (streams1.trans streams0)
  · exact transit1.trans transit0

/-- An entry that comes to be final-pending stays MINE, and PROBE entries stay (R77). -/
theorem State.markFinal_entry (s : State) (i : StreamNo) (k : SlotNo) :
    (∀ (l : LaneNo) (j : StreamNo), s.map[k] = .probe l j → (s.markFinal i).map[k] = .probe l j) ∧
      ∀ j : StreamNo, (s.markFinal i).map[k].isMineOf j = s.map[k].isMineOf j := by
  rw [State.markFinal, State.mapEntries_get]
  cases s.map[k] with
  | mine j c f =>
    refine ⟨nofun, fun m => ?_⟩
    dsimp only
    split <;> rfl
  | _ => exact ⟨fun _ _ he => he, fun _ => rfl⟩

theorem State.markFinal_offLine (s : State) (i : StreamNo) : OffLine s (s.markFinal i) where
  work h :=
    { cleared := by rw [State.markFinal, State.mapEntries_streams]; exact h.cleared
      lanesProbe := fun l r hr => by
        rw [State.markFinal, State.mapEntries_lanes] at hr
        exact (s.markFinal_entry i r.slot).1 l r.stream (h.lanesProbe l r hr)
      mine := fun b hb => by
        rw [State.markFinal, State.mapEntries_inTransit] at hb
        exact ((s.markFinal_entry i b.slot).2 b.stream).trans (h.mine b hb)
      returns := by rw [State.markFinal, State.mapEntries_streams, State.mapEntries_inTransit]; exact h.returns }
  slot := by rw [State.markFinal, State.mapEntries_inTransit]
  station := s.markFinal_stationView i

/-- The stream is drained before it comes to be CLOSING, and stays so (R116). -/
theorem State.beginClose_offLine (s : State) (i : StreamNo) :
    OffLine s (s.beginClose i) ∧ (s.beginClose i).Drained i := by
  have freed := (s.freeQueue_offLine i).trans (State.condemnTransit_offLine _ i)
  have left := freed.trans (State.leaveClaims_offLine _ i)
  have drained := (s.drained i).leaveClaims
  have closing := left.trans (.setState drained (f := fun r => { r with state := .closing }) rfl)
  refine ⟨closing.trans (State.markFinal_offLine _ i), ?_⟩
  refine (drained.setState (f := fun r => { r with state := .closing }) rfl).congr ?_ ?_
  · rw [State.beginClose, State.markFinal, State.mapEntries_streams]
  · rw [State.beginClose, State.markFinal, State.mapEntries_inTransit]

theorem State.closeStream_offLine (s : State) (i : StreamNo) : OffLine s (s.closeStream i) := by
  obtain ⟨closes, drained⟩ := s.beginClose_offLine i
  have posted (u : State) : OffLine u (u.post (.streamClosed i)) := ⟨fun h => h.view rfl, rfl, rfl⟩
  unfold State.closeStream
  dsimp only
  split
  · exact (closes.trans (.setState drained (f := fun r => { r with state := .idle, held := [] }) rfl)).trans (posted _)
  · exact closes

theorem State.closeFailed_offLine (s : State) (i : StreamNo) : OffLine s (s.closeFailed i) :=
  ((s.freeQueue_offLine i).trans (State.condemnTransit_offLine _ i)).trans
    (.setState (s.drained i) (f := fun r => { r with state := .idle, failure := none }) rfl)

theorem State.stopStreams_offLine (s : State) : OffLine s s.stopStreams := by
  refine .foldl (fun u i => ?_) allStreams s
  unfold State.stopStream
  split
  · exact u.closeStream_offLine i
  · exact u.closeStream_offLine i
  · exact u.closeFailed_offLine i
  · exact .refl u
  · exact .refl u

/-! ## Requests that open a stream or give it a block (R107, R108) -/

/-- A stream that opens is CLAIMING, and queues nothing yet. -/
theorem State.openTx_offLine (stream tag wanted : Byte) (s : State) :
    OffLine s (State.openTx stream tag wanted s).2 := by
  unfold State.openTx
  split
  · exact .refl s
  · split
    · exact .refl s
    · split
      · exact .refl s
      · split
        · exact .refl s
        · split
          · exact .refl s
          · rename_i i _ _ _ _
            rw [State.accept_state]
            have opened (h : PoolWork s) : PoolWork (s.modStream i fun _ => Stream.opened tag wanted.toNat) :=
              h.modStream i (fun _ => rfl) fun _ _ _ _ => ⟨nofun, nofun⟩
            exact ⟨opened, rfl, rfl⟩

theorem State.closeTx_offLine (stream : Byte) (s : State) : OffLine s (State.closeTx stream s).2 := by
  unfold State.closeTx
  split
  · exact .refl s
  · split
    · exact .refl s
    · exact .refl s
    · rw [State.accept_state]; exact s.closeStream_offLine _
    · rw [State.accept_state]; exact s.closeStream_offLine _
    · rw [State.accept_state]; exact s.closeFailed_offLine _

/-- Only a stream that is CLAIMING or LIVE takes a block. -/
theorem State.push_offLine (stream : Byte) (payload : Payload) (s : State) :
    OffLine s (State.push stream payload s).2 := by
  unfold State.push
  split
  · exact .refl s
  · split
    · exact .refl s
    · rename_i i _ takes
      split
      · exact .refl s
      · split
        · exact .refl s
        · rename_i b _
          have allocated : OffLine s (s.allocate b) := ⟨fun h => h.view rfl, rfl, rfl⟩
          rw [State.accept_state]
          refine allocated.trans (.modStream _ i rfl fun _ closed => ?_)
          rcases StreamState.takesBlocks_iff.mp (not_not.mp takes) with hs | hs <;>
            exact closed.elim (fun hc => nomatch hs.symm.trans hc) fun hc => nomatch hs.symm.trans hc

/-! ## STOP (R34, R35) -/

theorem State.stopEarly_fits {s : State} (h : PoolFits s) (active : s.station ≠ .active)
    (leaving : s.station ≠ .leaving) : PoolFits s.stopEarly :=
  (State.stopStreams_offLine _).fits (State.arriveReady_rests (h.rests_off active leaving) .stop).fits

theorem State.stopActive_fits {s : State} (h : PoolFits s) : PoolFits s.stopActive := by
  have entered : PoolFits (s.enter .leaving .stop) := ⟨h.work.view rfl, fun _ _ => .inr rfl, h.line.due, h.line.sent⟩
  have undrawn {u : State} (hu : PoolFits u) : PoolFits { u with drawnPosition := none } := hu.view rfl
  have stopped := undrawn ((State.stopStreams_offLine _).fits entered)
  unfold State.stopActive
  dsimp only
  split
  · exact stopped
  · exact State.checkLeft_fits stopped

theorem State.stopRequest_fits {s : State} (h : PoolFits s) : PoolFits s.stopRequest.2 := by
  unfold State.stopRequest
  split
  · exact h
  · exact h
  · rename_i hs
    rw [State.accept_state]
    exact State.stopEarly_fits h (by rw [hs]; exact nofun) (by rw [hs]; exact nofun)
  · rename_i hs
    rw [State.accept_state]
    exact State.stopEarly_fits h (by rw [hs]; exact nofun) (by rw [hs]; exact nofun)
  · rw [State.accept_state]; exact State.stopActive_fits h
  · exact h

/-! ## CONFIGURE and START (R22, R24) -/

theorem State.configure_fits {s : State} (h : PoolFits s) (address : Byte) (seed : Half) (f b : Bool) :
    PoolFits (State.configure address seed f b s).2 := by
  unfold State.configure
  split
  · rename_i hs
    split
    · exact h
    · have rests := h.rests_off (by rw [hs]; exact nofun) (by rw [hs]; exact nofun)
      exact PoolRests.fits (rests.view rfl)
  · exact h

theorem State.startRequest_fits {s : State} (h : PoolFits s) : PoolFits s.startRequest.2 := by
  unfold State.startRequest
  split
  · rename_i hs
    have rests := h.rests_off (by rw [hs]; exact nofun) (by rw [hs]; exact nofun)
    have entered {u : State} (hu : PoolRests u) : PoolRests (u.startTimer.enter .listen .start) := hu.view rfl
    exact (entered (rests.view s.switchOnReceiver_view)).fits
  · exact h

end Sys2Proof.Machine
end

section
/-! PROOF. What the timeline unit and the line raise, and the law of the pool. -/

namespace Sys2Proof.Machine

open Sys2Proof.Safety

/-! ## Commands under a guard -/

theorem State.unlessHeld_fits {s : State} (h : PoolFits s) {f : State → State} (k : PoolFits (f s)) :
    PoolFits (s.unlessHeld f) := by
  rcases s.unlessHeld_cases f with ⟨-, he⟩ | ⟨-, he⟩ <;> rw [he]
  · exact h
  · exact k

theorem State.atEvent_fits {s : State} (h : PoolFits s) {b : Boundary} {f : Timeline → State → State}
    (k : ∀ t, s.timeline = some t → s.boundary = some b → PoolFits (f t s)) : PoolFits (s.atEvent b f) := by
  rcases s.atEvent_cases b f with ⟨t, -, -, ht, hb, he⟩ | he <;> rw [he]
  · exact k t ht (State.boundary_eq ht hb)
  · exact h

/-- A cycle event other than a slot end finds no block in transit (R106). -/
theorem State.atEvent_rests {s : State} (h : PoolFits s) {b : Boundary} (between : ∀ k : SlotNo, b ≠ .slotEnd k)
    {f : Timeline → State → State} (k : ∀ t, PoolRests s → PoolFits (f t s)) : PoolFits (s.atEvent b f) :=
  State.atEvent_fits h fun t _ hb => k t (h.rests_between fun j hj => between j (Option.some.inj (hb.symm.trans hj)))

/-! ## The beacon phase (R43 to R48) -/

theorem State.takePosition_rests {s : State} (h : PoolRests s) (c : ObsClass HeardBeacon) :
    PoolRests (s.takePosition c) := by
  unfold State.takePosition
  split
  · exact h
  · rename_i b firstBit
    have trimmed : PoolRests ((s.beaconWasHeard.compareCycle b).trim b firstBit) :=
      PoolRests.view (s := s.beaconWasHeard) (h.view rfl) ((State.trim_view _ _ _).trans (State.compareCycle_view _ _))
    exact (State.mergeSummary_rests trimmed b.occupancy).view (State.checkAddress_view _ _)
  · exact h
  · exact h.view rfl
  · exact h

theorem State.closePosition_fits {s : State} (h : PoolRests s) (t : Timeline) (p : Position) :
    PoolFits (s.closePosition t p) := by
  have closed : PoolRests s.closeDivision := h.view rfl
  have passed {u : State} (hu : PoolRests u) : PoolRests (u.nextIs (Boundary.afterPosition p)) := hu.view rfl
  have judged (o : Outcome) : PoolRests (s.closeDivision.beaconOutcome o) := by cases o <;> exact h.view rfl
  unfold State.closePosition
  split
  · exact State.checkLeft_fits (passed (judged _)).fits
  · exact (passed (State.takePosition_rests closed _)).fits

/-! ## Slot occurrences (R10, R91, R110) -/

/-- The head block of a stream that queues one becomes the block in transit, in the MINE slot that begins (R106). -/
theorem State.sendData_fits {s : State} (h : PoolRests s) {k : SlotNo} (hb : s.boundary = some (.slotBegin k))
    (bus : s.station = .active ∨ s.station = .leaving) {i : StreamNo} (mine : s.map[k].isMineOf i = true)
    {block : Block} {rest : List Block} (hq : s.streams[i].queue = block :: rest) :
    PoolFits ((s.sendData i k block).nextIs (.slotEnd k)) := by
  have filled : s.streams[i].queue ≠ [] := by rw [hq]; exact List.cons_ne_nil _ _
  have used : s.streams[i].state ≠ .idle ∧ s.streams[i].state ≠ .closing :=
    ⟨fun hs => filled (h.work.cleared i (.inl hs)), fun hs => filled (h.work.cleared i (.inr hs))⟩
  have sent : PoolRests (s.modStream i fun r => { r with queue := r.queue.tail }) :=
    h.modStream i fun _ closed => (closed.elim used.1 used.2).elim
  refine ⟨⟨sent.work.cleared, sent.work.lanesProbe, fun b hb => ?_, fun b hb _ => ?_⟩, fun b _ => bus, fun b hm => ?_,
    fun b _ => rfl⟩
  · cases hb; exact mine
  · cases hb
    change (s.modStream i fun r => { r with queue := r.queue.tail }).streams[i].state ≠ .idle ∧
      (s.modStream i fun r => { r with queue := r.queue.tail }).streams[i].state ≠ .closing
    rw [State.modStream_get, if_pos rfl]
    exact used
  · cases hm
    exact State.nextIs_boundary (s := s.sendData i k block) hb _

theorem State.beginSlot_fits {s : State} (h : PoolRests s) {k : SlotNo} (hb : s.boundary = some (.slotBegin k)) :
    PoolFits ((s.beginSlot k).nextIs (.slotEnd k)) := by
  have opens {u : State} (hu : PoolRests u) : PoolFits (u.nextIs (.slotEnd k)) := PoolRests.fits (hu.view rfl)
  unfold State.beginSlot
  split
  · split
    · exact opens (h.view rfl)
    · exact opens h
  · rename_i i c f hk
    split
    · unfold State.sendOwned
      split
      · exact opens (h.view rfl)
      · split
        · exact State.sendData_fits h hb ‹_› ((MapEntry.isMineOf_iff _ _).mpr ⟨c, f, hk⟩) ‹_›
        · have handed : PoolRests (s.handOver (s.streamFrame i .fill zeroPayload)) := h.view rfl
          exact opens (handed.modStream i id)
    · exact opens h
  all_goals exact opens h

/-- Only DATA under way has a block in transit (R106). -/
theorem PoolFits.dataless {s : State} (h : PoolFits s) {x : Transmission} (hx : s.tx = some x)
    (other : ∀ g : SlotFrame, x.frame = .slot g → g.mark ≠ .data) : s.inTransit = none := by
  refine Option.eq_none_iff_forall_not_mem.mpr fun b hb => ?_
  have sent := h.line.sent b hb
  rw [sendsMark, hx] at sent
  obtain ⟨frame, _⟩ := x
  cases frame with
  | beacon _ => cases sent
  | slot g => exact other g rfl (eq_of_beq sent)

theorem State.endOwnSlot_fits {s : State} (h : PoolFits s) (t : Timeline) (k : SlotNo) {x : Transmission}
    (hx : s.tx = some x) : PoolFits (s.endOwnSlot t k x) := by
  have recorded (o : Outcome) :
      (s.closeDivision.recordOutcome k o).engineView = { s.engineView with frame := none } := by
    cases o <;> rfl
  have taken (o : Outcome) : PoolRests ((s.closeDivision.recordOutcome k o).takeOutcome k x.frame o) :=
    State.takeOutcome_rests (h.work.view (recorded o))
      (fun other => (congrArg EngineView.inTransit (recorded o)).trans (h.dataless hx other)) k o
  have passed {u : State} (hu : PoolRests u) : PoolRests (u.nextIs (Boundary.afterSlot k)) := hu.view rfl
  dsimp only [State.endOwnSlot]
  split
  · exact State.checkLeft_fits (passed (taken _)).fits
  · exact (passed (taken _)).fits

theorem State.endHeardSlot_rests {s : State} (h : PoolRests s) (t : Timeline) (k : SlotNo) :
    PoolRests (s.endHeardSlot t k) := by
  have closed : PoolRests s.closeDivision := h.view rfl
  have recorded := closed.view (State.recordClass_view _ k (s.slotClass t k))
  have received := (State.observeSlot_rests recorded k (s.slotClass t k)).view
    (State.receiveClass_view _ k t.cycle (s.slotClass t k))
  exact received.view (t := State.nextIs _ _) rfl

/-- A slot in which the station sends nothing ends with no block in transit. -/
theorem execSlotOccurrenceEnd_fits {k : SlotNo} {s t : State} (h : PoolFits s)
    (he : execSlotOccurrenceEnd k s = .next t) : PoolFits t := by
  cases he
  refine State.atEvent_fits h fun u _ _ => ?_
  split
  · exact h
  · split
    · exact State.endOwnSlot_fits h u k ‹_›
    · rename_i hx
      have quiet : s.inTransit = none := Option.eq_none_iff_forall_not_mem.mpr fun b hb =>
        Bool.false_ne_true ((sendsMark_none hx .data).symm.trans (h.line.sent b hb))
      exact (State.endHeardSlot_rests ⟨h.work, quiet⟩ u k).fits

/-! ## Joining and founding a timeline (R27, R28, R33, R54) -/

theorem State.adopt_rests {s : State} (h : PoolRests s) (b : BeaconFrame) (firstBit lastBit : Time) :
    PoolRests (s.adopt b firstBit lastBit) := by
  have joined : PoolRests
      ((((s.restartReceiver lastBit).joinTimeline b firstBit).enter .settle .adopt).countCleanBeacon) := h.view rfl
  exact (State.mergeSummary_rests joined b.occupancy).view (State.checkAddress_view _ _)

theorem State.found_rests {s : State} (h : PoolRests s) (time : Time) : PoolRests (s.found time) := by
  have cleared : PoolRests { s.clearActivity with
      timeline := some (s.foundedTimeline time), holdover := 0, settle := 0, listenTimer := .stopped
      reports := Reports.empty } := h.view rfl
  have entered {u : State} (hu : PoolRests u) : PoolRests (u.enter .active .found) := hu.view rfl
  exact (entered (State.fillMap_rests cleared)).view (State.drawPosition_view _)

theorem State.takeReport_fits {s : State} (h : PoolFits s) (r : FrameReport) : PoolFits (s.takeReport r) := by
  have gathered : PoolFits (if s.station.onTimeline then s.gatherFrame r else s) := by
    split
    · exact h.view rfl
    · exact h
  unfold State.takeReport State.handBeacon
  generalize (if s.station.onTimeline then s.gatherFrame r else s) = u at gathered
  split
  · rename_i b _
    split
    · rename_i hl
      have rests := gathered.rests_off (by rw [hl]; exact nofun) (by rw [hl]; exact nofun)
      exact (State.adopt_rests rests b _ _).fits
    · split
      · unfold State.sortBeacon
        split
        · exact gathered
        · split
          · split
            · exact (State.mergeLeaving_rests gathered.work b).fits
            · exact (State.mergeOnto_rests gathered.work b _).fits
          · exact gathered.view (State.checkAddress_view _ _)
      · exact gathered
  · exact gathered
  · exact gathered

/-! ## Every command that the timeline unit and the line raise -/

theorem execCarrier_fits {time : Time} {s t : State} (h : PoolFits s)
    (he : execCarrierStart time s = .next t ∨ execCarrierEnd time s = .next t) : PoolFits t := by
  rcases he with he | he <;> cases he
  · split
    · exact h
    · split <;> exact h.view rfl
  · split
    · exact h
    · split
      · exact h.view ((State.startTimer_view _).trans ((State.hears_view _ time).trans rfl))
      · split <;> exact h.view rfl

theorem execFrameReport_fits {pattern : Half} {bytes : List Byte} {firstBit lastBit : Time} {s t : State}
    (h : PoolFits s) (he : execFrameReport pattern bytes firstBit lastBit s = .next t) : PoolFits t := by
  cases he
  refine State.unlessHeld_fits h ?_
  have heard := h.view (s.hears_view lastBit)
  split
  · split
    · exact heard
    · exact State.takeReport_fits heard _
  · exact h

theorem execJamReport_fits {time : Time} {s t : State} (h : PoolFits s) (he : execJamReport time s = .next t) :
    PoolFits t := by
  cases he
  refine State.unlessHeld_fits h ?_
  split
  · exact h.view rfl
  · exact h.view (s.hears_view time)

/-- The lead-in and a read-back mismatch leave the frame handed over as it is (R6, R11). -/
theorem execTransmission_fits {s t : State} (h : PoolFits s)
    (he : execLeadIn s = .next t ∨ execReadBackMismatch s = .next t) : PoolFits t := by
  have staged {f : Frame} {x y : Stage} (hx : s.tx = some { frame := f, stage := x }) :
      PoolFits { s with tx := some { frame := f, stage := y } } := by
    refine h.view ?_
    rw [State.engineView, State.engineView, hx]
    rfl
  rcases he with he | he <;> cases he
  all_goals
    refine State.unlessHeld_fits h ?_
    split
    · exact staged ‹_›
    all_goals exact h

theorem execListenTimerExpiry_fits {time : Time} {s t : State} (h : PoolFits s)
    (he : execListenTimerExpiry time s = .next t) : PoolFits t := by
  cases he
  refine State.unlessHeld_fits h ?_
  split
  · rename_i hl
    split
    · have rests := h.rests_off (by rw [hl.1]; exact nofun) (by rw [hl.1]; exact nofun)
      exact (State.found_rests rests time).fits
    · exact h.view s.startTimer_view
  · exact h

theorem raised_fits {c : Instr} {s t : State} (hc : raised c = true) (h : PoolFits s) (he : exec c s = .next t) :
    PoolFits t := by
  cases c with
  | cycleStart =>
    cases he
    refine State.atEvent_rests h (b := .cycleStart) (fun _ => nofun) fun u rests => ?_
    have advanced : PoolRests (({ s with timeline := some u.nextCycle } : State).rotateActivity) := rests.view rfl
    exact (advanced.view (State.drawPosition_view _)).fits
  | beaconPosition p =>
    cases he
    refine State.atEvent_rests h (b := .positionOpen p) (fun _ => nofun) fun u rests => ?_
    obtain ⟨f, hf⟩ := s.openDivision.openPosition_view u p
    have passed {v : State} (hv : PoolRests v) : PoolRests (v.nextIs (.positionClose p)) := hv.view rfl
    have opened : PoolRests s.openDivision := rests.view rfl
    exact (passed (opened.view hf)).fits
  | beaconPositionClose p =>
    cases he
    refine State.atEvent_rests h (b := .positionClose p) (fun _ => nofun) fun u rests => ?_
    split
    · exact h
    · exact State.closePosition_fits rests u p
  | slotPhaseStart =>
    cases he
    refine State.atEvent_rests h (b := .slotPhaseStart) (fun _ => nofun) fun u rests => ?_
    have passed {v : State} (hv : PoolRests v) : PoolFits (v.nextIs (.slotBegin 0)) := PoolRests.fits (hv.view rfl)
    split
    · exact passed (State.serveClaims_rests rests)
    · exact passed rests
  | slotOccurrenceEnd => exact execSlotOccurrenceEnd_fits h he
  | cycleEnd =>
    cases he
    refine State.atEvent_rests h (b := .cycleEnd) (fun _ => nofun) fun u rests => ?_
    have due : PoolRests (s.nextIs .cycleStart) := rests.view rfl
    have chosen {v : State} (hv : PoolRests v) : PoolFits { v with choices := s.choices + 1 } :=
      PoolRests.fits (hv.view rfl)
    exact chosen (State.endCycle_rests due)
  | leadIn => exact execTransmission_fits h (.inl he)
  | readBackMismatch => exact execTransmission_fits h (.inr he)
  | carrierStart => exact execCarrier_fits h (.inl he)
  | carrierEnd => exact execCarrier_fits h (.inr he)
  | frameReport => exact execFrameReport_fits h he
  | jamReport => exact execJamReport_fits h he
  | listenTimerExpiry => exact execListenTimerExpiry_fits h he
  | _ => cases hc

end Sys2Proof.Machine
end

section
/-! PROOF. Every command and every step keeps the law of the block pool: O58. -/

namespace Sys2Proof.Machine

open Sys2Proof.Safety

/-! ## Where each buffer is, and the host's requests -/

/-- Blocks that leave the head of a receive queue for the free list leave each buffer in as many places as it was
(R128, R139, R147). -/
theorem State.releaseSub_buffers (s : State) (e : EntryNo) {f : Subscription → Subscription} {freed : List BufferNo}
    (parts : s.subs[e].buffers = freed ++ (f s.subs[e]).buffers) (b : BufferNo) :
    ((s.release freed).modSub e f).buffers.count b = s.buffers.count b := by
  have rx : ((s.release freed).modSub e f).rxBuffers.count b + s.subs[e].buffers.count b =
      s.rxBuffers.count b + (f s.subs[e]).buffers.count b := (s.release freed).modSub_rxBuffers e f b
  have free : ((s.release freed).modSub e f).freeList.count b = s.freeList.count b + freed.count b := List.count_append
  have tx : ((s.release freed).modSub e f).txBuffers = s.txBuffers := rfl
  have transit : ((s.release freed).modSub e f).inTransit = s.inTransit := rfl
  rw [parts, List.count_append] at rx
  rw [State.buffers_count, State.buffers_count s, tx, transit]
  omega

theorem State.subscribe_buffers (entry source tag : Byte) (s : State) (b : BufferNo) :
    (State.subscribe entry source tag s).2.buffers.count b = s.buffers.count b := by
  unfold State.subscribe
  split
  · rfl
  · split
    · split
      · rfl
      · split
        · rfl
        · split
          · rfl
          · exact s.modSub_buffers _ _ rfl b
    all_goals rfl

theorem State.unsubscribe_buffers (entry : Byte) (s : State) (b : BufferNo) :
    (State.unsubscribe entry s).2.buffers.count b = s.buffers.count b := by
  unfold State.unsubscribe
  split
  · rfl
  · split
    · rfl
    · exact s.releaseSub_buffers _ (List.append_nil _).symm b

theorem State.commit_buffers (s : State) (target : Option CommitTarget) (b : BufferNo) :
    (s.commit target).buffers.count b = s.buffers.count b := by
  unfold State.commit
  split
  · rfl
  · rfl
  · rename_i e
    unfold State.popHead
    split
    · rfl
    · rename_i block rest hq
      exact s.releaseSub_buffers e (f := fun r => { r with queue := rest }) (by rw [Subscription.buffers, hq]; rfl) b

theorem State.configure_buffers (address : Byte) (seed : Half) (f b : Bool) (s : State) :
    (State.configure address seed f b s).2.buffers = s.buffers := by
  unfold State.configure
  split
  · split <;> rfl
  · rfl

/-! ### The law after a request -/

section Requests

variable {s t : State}

theorem poolLegal_conserved (h : PoolLegal s) (fits : PoolFits t)
    (buffers : ∀ b : BufferNo, t.buffers.count b = s.buffers.count b) : PoolLegal t :=
  fits.legal fun b => (buffers b).trans (h.once b)

/-- What touches neither the pool nor its streams, lanes and line. -/
theorem poolLegal_view (h : PoolLegal s) (hv : t.engineView = s.engineView) (buffers : t.buffers = s.buffers) :
    PoolLegal t :=
  poolLegal_conserved h ((PoolFits.of_legal h).view hv) fun b => by rw [buffers]

theorem State.configure_pool (h : PoolLegal s) (address : Byte) (seed : Half) (f b : Bool) :
    PoolLegal (State.configure address seed f b s).2 :=
  poolLegal_conserved h (State.configure_fits (.of_legal h) ..) fun _ => by rw [State.configure_buffers]

theorem State.startRequest_pool (h : PoolLegal s) : PoolLegal s.startRequest.2 := by
  refine poolLegal_conserved h (State.startRequest_fits (.of_legal h)) fun b => ?_
  unfold State.startRequest
  split
  · have started := s.switchOnReceiver_conserves.trans (State.startTimer_conserves _)
    exact (started.trans (State.enter_conserves _ _ _)).buffers b
  · rfl

theorem State.stopRequest_pool (h : PoolLegal s) : PoolLegal s.stopRequest.2 := by
  refine poolLegal_conserved h (State.stopRequest_fits (.of_legal h)) fun b => ?_
  unfold State.stopRequest
  split
  · rfl
  · rfl
  · rw [State.accept_state]; exact s.stopEarly_conserves.buffers b
  · rw [State.accept_state]; exact s.stopEarly_conserves.buffers b
  · rw [State.accept_state]; exact s.stopActive_conserves.buffers b
  · rfl

/-- A stream that opens was IDLE, and so had no block to lose. -/
theorem State.openTx_pool (h : PoolLegal s) (stream tag wanted : Byte) :
    PoolLegal (State.openTx stream tag wanted s).2 := by
  refine poolLegal_conserved h ((State.openTx_offLine ..).fits (.of_legal h)) fun b => ?_
  unfold State.openTx
  split
  · rfl
  · split
    · rfl
    · split
      · rfl
      · split
        · rfl
        · rename_i i _ _ idle
          split
          · rfl
          · have empty := h.emptyWhenClosed i (.inl (not_not.mp idle))
            exact (s.modStream_conserves i (fun _ => Stream.opened tag wanted.toNat) empty.symm).buffers b

theorem State.closeTx_pool (h : PoolLegal s) (stream : Byte) : PoolLegal (State.closeTx stream s).2 := by
  refine poolLegal_conserved h ((State.closeTx_offLine ..).fits (.of_legal h)) fun b => ?_
  unfold State.closeTx
  split
  · rfl
  · split
    · rfl
    · rfl
    · rw [State.accept_state]; exact (s.closeStream_conserves _).buffers b
    · rw [State.accept_state]; exact (s.closeStream_conserves _).buffers b
    · rw [State.accept_state]; exact (s.closeFailed_conserves _).buffers b

theorem State.push_pool (h : PoolLegal s) (stream : Byte) (payload : Payload) :
    PoolLegal (State.push stream payload s).2 := by
  refine poolLegal_conserved h ((State.push_offLine ..).fits (.of_legal h)) fun b => ?_
  unfold State.push
  split
  · rfl
  · split
    · rfl
    · split
      · rfl
      · rcases s.givenBuffer_cases with ⟨-, hg⟩ | ⟨c, hc, hg⟩ <;> simp only [hg]
        · rfl
        · exact (State.pushBlock_conserves hc _ payload).buffers b

theorem State.subscribe_pool (h : PoolLegal s) (entry source tag : Byte) :
    PoolLegal (State.subscribe entry source tag s).2 :=
  poolLegal_conserved h ((PoolFits.of_legal h).view (State.subscribe_view ..))
    (State.subscribe_buffers entry source tag s)

theorem State.unsubscribe_pool (h : PoolLegal s) (entry : Byte) : PoolLegal (State.unsubscribe entry s).2 :=
  poolLegal_conserved h ((PoolFits.of_legal h).view (State.unsubscribe_view ..)) (State.unsubscribe_buffers entry s)

theorem RequestCode.serve_pool (h : PoolLegal s) (c : RequestCode) (args : List Byte) :
    PoolLegal (c.serve args s).2 := by
  have same {t : State} (ht : t = s) : PoolLegal t := ht ▸ h
  cases c with
  | configure => exact State.configure_pool h ..
  | start => exact State.startRequest_pool h
  | stop => exact State.stopRequest_pool h
  | reset => exact h
  | openTx => exact State.openTx_pool h ..
  | closeTx => exact State.closeTx_pool h _
  | push => exact State.push_pool h ..
  | subscribe => exact State.subscribe_pool h ..
  | unsubscribe => exact State.unsubscribe_pool h _
  | pop => exact same (State.pop_state ..)
  | readEvent => exact same s.readEvent_state
  | readStation => exact h
  | readStream => exact same (State.readStream_state ..)
  | readSub => exact same (State.readSub_state ..)
  | readSlot => exact same (State.readSlot_state ..)

/-! ## The host link (R163, R167, R170) -/

theorem State.deviceReset_pool (s : State) : PoolLegal s.deviceReset :=
  poolLegal_view Proofs.resetStateIsLegal.pool rfl rfl

theorem State.finishTransaction_pool (h : PoolLegal s) (k : Taken) : PoolLegal (s.finishTransaction k) :=
  poolLegal_conserved h ((PoolFits.of_legal h).view (s.finishTransaction_view k)) (s.commit_buffers k.commit)

theorem State.taken_pool {code : Byte} {serve : State → Reply × State} (served : PoolLegal (serve s).2) :
    PoolLegal (s.taken code serve) := poolLegal_view served (s.taken_view code serve) rfl

theorem State.request_pool (h : PoolLegal s) {code : Byte} {args : List Byte} {serve : State → Reply × State}
    (served : PoolLegal (serve s).2) : PoolLegal (s.request code args serve) := by
  rcases s.request_cases code args serve with ⟨-, -, he⟩ | ⟨-, he⟩ <;> rw [he]
  · exact State.taken_pool served
  · exact h

theorem State.takeByte_pool (h : PoolLegal s) (b : Byte) : PoolLegal (s.takeByte b) := by
  rcases s.takeByte_cases b with ⟨l, he⟩ | ⟨code, serve, he, known⟩ | ⟨-, he⟩ | ⟨k, n, -, -, he⟩ <;> rw [he]
  · exact poolLegal_view h rfl rfl
  · refine State.taken_pool ?_
    rcases known with rfl | ⟨c, args, rfl⟩
    · exact h
    · exact c.serve_pool h args
  · exact s.deviceReset_pool
  · exact State.finishTransaction_pool h k

theorem State.unlessHeld_pool (h : PoolLegal s) {f : State → State} (k : PoolLegal (f s)) :
    PoolLegal (s.unlessHeld f) := by
  rcases s.unlessHeld_cases f with ⟨-, he⟩ | ⟨-, he⟩ <;> rw [he]
  · exact h
  · exact k

theorem execPins_pool (h : PoolLegal s)
    (he : execTransactionBegin s = .next t ∨ execTransactionEnd s = .next t ∨ execResetInputAsserted s = .next t ∨
      execResetInputReleased s = .next t) : PoolLegal t := by
  rcases he with he | he | he | he <;> cases he
  · split
    · exact h
    · split <;> exact poolLegal_view h rfl rfl
  · split
    · exact h
    · split <;> exact poolLegal_view h rfl rfl
  · split
    · exact h
    · exact poolLegal_view s.deviceReset_pool rfl rfl
  · split
    · exact poolLegal_view h rfl rfl
    · exact h

end Requests

/-! ## Every command -/

/-- A slot occurrence begins with no block in transit, so that the head block of its stream may become it (R106). -/
theorem execSlotOccurrenceBegin_pool {k : SlotNo} {s t : State} (h : PoolLegal s)
    (he : execSlotOccurrenceBegin k s = .next t) : PoolLegal t := by
  cases he
  have fits : PoolFits (s.atEvent (.slotBegin k) fun _ s => (s.openDivision.beginSlot k).nextIs (.slotEnd k)) :=
    State.atEvent_fits (.of_legal h) fun u _ hb => State.beginSlot_fits
      (((PoolFits.of_legal h).rests_between fun j hj => nomatch hb.symm.trans hj).view (t := s.openDivision) rfl) hb
  refine poolLegal_conserved h fits (State.atEvent_conserves fun u hu hb => ?_).buffers
  have quiet : s.inTransit = none := transit_none_of_boundary h hu fun j hj => nomatch hb.symm.trans hj
  exact (s.openDivision_conserves.trans (State.beginSlot_conserves (s := s.openDivision) quiet k)).trans
    (State.nextIs_conserves _ _)

theorem exec_pool {c : Instr} {s t : State} (h : PoolLegal s) (he : exec c s = .next t) : PoolLegal t := by
  by_cases hc : raised c = true
  · exact poolLegal_conserved h (raised_fits hc (.of_legal h) he) (exec_conserves hc he).buffers
  have request {code : Byte} {args : List Byte} {serve : State → Reply × State} (served : PoolLegal (serve s).2) :
      PoolLegal (s.request code args serve) := State.request_pool h served
  have same {t : State} (ht : t = s) : PoolLegal t := ht ▸ h
  cases c with
  | configure => cases he; exact request (State.configure_pool h ..)
  | start => cases he; exact request (State.startRequest_pool h)
  | stop => cases he; exact request (State.stopRequest_pool h)
  | openTx => cases he; exact request (State.openTx_pool h ..)
  | closeTx => cases he; exact request (State.closeTx_pool h _)
  | push => cases he; exact request (State.push_pool h ..)
  | subscribe => cases he; exact request (State.subscribe_pool h ..)
  | unsubscribe => cases he; exact request (State.unsubscribe_pool h _)
  | pop => cases he; exact request (same (State.pop_state ..))
  | readEvent => cases he; exact request (same s.readEvent_state)
  | readStation => cases he; exact request h
  | readStream => cases he; exact request (same (State.readStream_state ..))
  | readSub => cases he; exact request (same (State.readSub_state ..))
  | readSlot => cases he; exact request (same (State.readSlot_state ..))
  | unknownCode =>
    cases he
    split
    · exact request h
    · exact h
  | reset =>
    cases he
    refine State.unlessHeld_pool h ?_
    split
    · exact s.deviceReset_pool
    · exact h
  | transactionBegin => exact execPins_pool h (.inl he)
  | transactionEnd => exact execPins_pool h (.inr (.inl he))
  | resetInputAsserted => exact execPins_pool h (.inr (.inr (.inl he)))
  | resetInputReleased => exact execPins_pool h (.inr (.inr (.inr he)))
  | consumingReadCommit =>
    cases he
    refine State.unlessHeld_pool h ?_
    split
    · split
      · exact State.finishTransaction_pool h _
      · exact h
    all_goals exact h
  | slotOccurrenceBegin => exact execSlotOccurrenceBegin_pool h he
  | byteComplete b => cases he; exact State.unlessHeld_pool h (State.takeByte_pool h b)
  | _ => exact absurd rfl hc

end Sys2Proof.Machine

namespace Sys2Proof.Proofs

open Sys2Proof.Machine Sys2Proof.Safety

/-- Settles O58: neither the waiting commands nor the listen timer is a part of the pool, and every command keeps its
law. -/
theorem stepKeepsPoolLaw : Obligations.StepKeepsPoolLaw := by
  intro s t h he
  unfold step at he
  split at he
  · cases he
    exact poolLegal_view h rfl rfl
  · rename_i c rest _
    have unqueued : PoolLegal { s with pending := rest } := poolLegal_view h rfl rfl
    exact exec_pool unqueued he

end Sys2Proof.Proofs
end
